-- ==== Sys2Proof/Word.lean ====
section
/-!
DEFINITION. The plain data types every other file uses: bytes, command words, a 312-entry frame of
scanline counters, a 320-sample PCM frame (rules R10, R60, R85, R100, R101 of spec/).
-/
namespace Sys2Proof

/-- A byte: a tape image element, an I/O data byte (rules R60, R92). -/
abbrev Byte := BitVec 8

/-- A command word, `op[31:24] a[23:8] b[7:0]` (rule R85). -/
abbrev Word := BitVec 32

/-- 312 per-scanline counters, the shape of `ACC`, `MB`, `CUR` and `TACC` (rules R27, R60, R100). A counter
counts CPU cycles, 0 to 224. -/
abbrev LineFrame := Vector Nat 312

/-- 320 samples, the shape of one buffer of `PCM` (rules R37, R101). A sample is a signed value (rule R63). -/
abbrev PcmFrame := Vector Int 320

/-- The vector whose element `i` is `f i`. -/
def tabulate {α : Type} (n : Nat) (f : Nat → α) : Vector α n :=
  ⟨((List.range n).map f).toArray, by simp⟩

/-- The element at index `k`; rule R61: every index a rule computes is in range. -/
def LineFrame.entry (F : LineFrame) (k : Nat) : Nat := F[k]?.getD 0

end Sys2Proof
end

