-- ==== Sys2Proof/Syntax.lean ====
section
/-!
DEFINITION. The five agents, the command as it is issued, and the ONE inductive of operations, a constructor per
row of spec/opcode_table.json (rules R13, R85, R86 of spec/).
-/
namespace Sys2Proof

/-- The agents that issue operations (rule R13). -/
inductive Agent where
  /-- the primary execution context -/
  | p
  /-- the CPU execution unit, inside a `Cpu.run` call -/
  | c
  /-- the audio-output execution context -/
  | a
  /-- the audio output sink -/
  | s
  /-- the host -/
  | h
  deriving DecidableEq, Repr, Inhabited

/-- A command as it is issued: the 32-bit word, and beside it the tape image that `TLOAD` and `TPLAY` take
(rule R85). -/
structure Cmd where
  word : Word
  image : List Byte
  deriving DecidableEq, Repr, Inhabited

/-- The operations of the block (rule R86); what rule R2 calls the block's instructions. -/
inductive Instr where
  | portw (port : BitVec 16) (data : Byte)
  | portr (port : BitVec 16)
  | line (en : Bool)
  | eof
  | frame (en : Bool)
  | steady
  | tload (img : List Byte)
  | tboot
  | pulse (w : BitVec 16)
  | tblock (i : BitVec 16)
  | tpause
  | tplay (img : List Byte)
  | setvol (level : BitVec 4)
  | post
  | take
  | render
  | submit
  | wait
  | flip
  | aperiod
  | sinkdone
  | preset
  | mreset
  | lasterr
  deriving DecidableEq, Repr, Inhabited

/-- The agents an operation may be issued by (column "agents" of rule R86). -/
def Instr.agents : Instr → List Agent
  | .portw _ _ => [.c]
  | .portr _ => [.c]
  | .line _ => [.p]
  | .eof => [.p]
  | .frame _ => [.p]
  | .steady => [.p]
  | .tload _ => [.p]
  | .tboot => [.p]
  | .pulse _ => [.p]
  | .tblock _ => [.p]
  | .tpause => [.p]
  | .tplay _ => [.p]
  | .setvol _ => [.h, .p]
  | .post => [.p]
  | .take => [.a]
  | .render => [.a]
  | .submit => [.a]
  | .wait => [.a]
  | .flip => [.a]
  | .aperiod => [.a]
  | .sinkdone => [.s]
  | .preset => [.h]
  | .mreset => [.p]
  | .lasterr => [.h]

end Sys2Proof
end

