-- ==== Sys2Proof/Config.lean ====
section
/-!
DEFINITION. What is fixed for the machine: the constants of rules R6 and R7, the open parameters of rule R8 (opaque:
nothing in Lean can evaluate them), the types of what the CPU unit and the host answer, and the free values (rules R51,
R243 and spec/93_implementation_defined.md).
-/
namespace Sys2Proof

/-! ### Types of what stands outside the block -/

/-- The CPU unit's interrupt mode, 0 to 2 (rule R23). -/
inductive IntMode where
  | im0
  | im1
  | im2
  deriving DecidableEq, Repr, Inhabited

/-- The CPU unit's register block (rule R23; four alternate pairs, C10 of spec/90_conflicts.md). -/
structure CpuRegs where
  af : BitVec 16
  bc : BitVec 16
  de : BitVec 16
  hl : BitVec 16
  ix : BitVec 16
  iy : BitVec 16
  sp : BitVec 16
  pc : BitVec 16
  afAlt : BitVec 16
  bcAlt : BitVec 16
  deAlt : BitVec 16
  hlAlt : BitVec 16
  i : BitVec 8
  r : BitVec 7
  iff1 : Bool
  iff2 : Bool
  im : IntMode
  deriving DecidableEq, Repr, Inhabited

/-- One answer of the CPU-unit oracle to `Cpu.run` (rules R51, R243): the port commands the unit issues during the run,
in order, the count it returns, and the registers it shows afterwards. -/
structure RunAnswer where
  ops : List Cmd
  count : Nat
  regs : CpuRegs
  deriving DecidableEq, Repr, Inhabited

/-- The open bits of one even-port read (rule R90): the keyboard's five bits and bits 5 and 7. -/
structure ReadInput where
  kbd : BitVec 5
  bit5 : Bool
  bit7 : Bool
  deriving DecidableEq, Repr, Inhabited

/-- A key chord of the boot's key script, the set of keys held together, each named by a number (rule R8). -/
abbrev Chord := List Nat

/-- The fault and error codes (rule R226). -/
inductive ErrCode where
  /-- `E_NONE` -/
  | none
  /-- `E_TAPE_TRUNC` -/
  | tapeTrunc
  /-- `E_TAPE_LEN` -/
  | tapeLen
  /-- `E_TAPE_FRAMING` -/
  | tapeFraming
  /-- `E_NOMEM` -/
  | noMem
  /-- `F_CPU_ZERO` -/
  | cpuZero
  /-- `F_CPU_COUNT` -/
  | cpuCount
  deriving DecidableEq, Repr, Inhabited

/-- The number of a code (rule R226). -/
def ErrCode.number : ErrCode → Nat
  | .none => 0
  | .tapeTrunc => 1
  | .tapeLen => 2
  | .tapeFraming => 3
  | .noMem => 4
  | .cpuZero => 5
  | .cpuCount => 6

namespace Config

/-! ### Constants (rules R6, R7) -/

/-- `NLINES` -/
def nLines : Nat := 312
/-- `TLINE` -/
def tLine : Nat := 224
/-- `TFRAME` -/
def tFrame : Nat := 69888
/-- `FRAME_HZ`, nominal; no rule depends on it (rule R9) -/
def frameHz : Nat := 50
/-- `SRATE` -/
def sampleRate : Nat := 16000
/-- `NSAMP` -/
def nSamp : Nat := 320
/-- `VOL_MAX` -/
def volMax : Nat := 10
/-- `N_PILOT_HDR` -/
def nPilotHdr : Nat := 8063
/-- `N_PILOT_DATA` -/
def nPilotData : Nat := 3223
/-- `T_PILOT` -/
def tPilot : Nat := 2168
/-- `T_SYNC1` -/
def tSync1 : Nat := 667
/-- `T_SYNC2` -/
def tSync2 : Nat := 735
/-- `T_BIT0` -/
def tBit0 : Nat := 855
/-- `T_BIT1` -/
def tBit1 : Nat := 1710
/-- `PAUSE_MS`; no state depends on it (rule R277) -/
def pauseMs : Nat := 1000
/-- `WARMUP_FRAMES` -/
def warmupFrames : Nat := 200
/-- `FLAG_HDR` -/
def flagHdr : Byte := 0x00#8
/-- `FLAG_DATA` -/
def flagData : Byte := 0xFF#8
/-- `LINE_DIAG`, configurable (rule R7) -/
def lineDiag : Nat := 156
/-- `TAPE_VOL_OFFSET`, configurable (rule R7) -/
def tapeVolOffset : Nat := 2

/-! ### Open parameters (rule R8, U20), each brought into its legal range (notes/assumptions/12.md) -/

opaque peakRaw : Nat
/-- `PEAK`, 1 to 32767 -/
def peak : Nat := max 1 (min peakRaw 32767)

opaque fadeRaw : Nat
/-- `FADE`, 1 to 160 -/
def fade : Nat := max 1 (min fadeRaw 160)

/-- `INT_VECTOR`, 8 bits -/
opaque intVector : BitVec 8

opaque volResetRaw : Nat
/-- `VOL_RESET`, 0 to 10 -/
def volReset : Nat := min volResetRaw 10

/-- `KEY_SCRIPT` -/
opaque keyScript : List Chord

opaque keyHoldRaw : Nat
/-- `KEY_HOLD_FRAMES`, at least 1 -/
def keyHoldFrames : Nat := max 1 keyHoldRaw

/-- `REFRESH_PERIOD`, in tape frames, 0 for the guaranteed calls alone -/
opaque refreshPeriod : Nat

/-- `ERR_TEXT` -/
opaque errText : ErrCode → String

/-! ### Free values: an opaque function applied to the counter `env.draws` of State, advanced at every draw -/

/-- What the CPU unit answers to a `Cpu.run` call no scripted answer is left for (U11; notes/assumptions/7.md). -/
opaque freeRun : Nat → RunAnswer

/-- The CPU unit's registers after `Cpu.reset` or `Cpu.interrupt`, and `DIAG` after `PRESET` (U2, U11, U12;
notes/assumptions/7.md, 11.md). -/
opaque freeRegs : Nat → CpuRegs

/-- The open bits of an even-port read, by the high byte of the port address (U3, U6; notes/assumptions/14.md). -/
opaque freeRead : Nat → Byte → ReadInput

/-- The byte an odd-port read returns, one value for every run (U4; notes/assumptions/14.md). -/
opaque floatBus : Byte

/-- Whether the host had memory for a tape image (U15; notes/assumptions/15.md). -/
opaque freeAlloc : Nat → Bool

/-- The border after a reset (U1; notes/assumptions/10.md). -/
opaque freeBorder : Nat → BitVec 3

/-- The agent that moves when several have something to issue, or none has (U14; notes/assumptions/6.md). -/
opaque freeAgent : Nat → Agent

end Config

end Sys2Proof
end

