-- ==== Sys2Proof/WellFormed.lean ====
section
/-!
DEFINITION. The operand ranges of the operation map (rule R86 of spec/) that the types of `Instr` do not already
impose: a pulse width is 1 to 65535, a volume level is 0 to 10. An operation outside its range is refused when it is
issued (rules R88, R150, R181). The range of a block index depends on the state (rule R153) and is no matter of form.
-/
namespace Sys2Proof

/-- The operands are in the ranges of rule R86. -/
def Instr.wellFormed : Instr → Bool
  | .portw _ _ => true
  | .portr _ => true
  | .line _ => true
  | .eof => true
  | .frame _ => true
  | .steady => true
  | .tload _ => true
  | .tboot => true
  | .pulse w => decide (w ≠ 0#16)
  | .tblock _ => true
  | .tpause => true
  | .tplay _ => true
  | .setvol level => decide (level.toNat ≤ 10)
  | .post => true
  | .take => true
  | .render => true
  | .submit => true
  | .wait => true
  | .flip => true
  | .aperiod => true
  | .sinkdone => true
  | .preset => true
  | .mreset => true
  | .lasterr => true

end Sys2Proof
end

