-- ==== Sys2Proof/Decode.lean ====
section
/-!
DEFINITION. The decoder of a command, total and rejecting by name, the encoder, and the entry point the host reads
(rules R85, R86, R87, R88 of spec/).
-/
namespace Sys2Proof

/-- Why a command is no operation (rule R88). -/
inductive Reject where
  /-- the `op` field is not in the table of rule R86 -/
  | reservedOp
  /-- an operand bit the operation does not use is 1 -/
  | unusedBits
  /-- an image stands beside a command that takes none (DESIGN CHOICE, notes/assumptions/27.md) -/
  | imageNotTaken
  deriving DecidableEq, Repr

/-- `op`, bits 31 to 24 (rule R85). -/
def Cmd.op (c : Cmd) : BitVec 8 := c.word.extractLsb' 24 8

/-- `a`, bits 23 to 8 (rule R85). -/
def Cmd.a (c : Cmd) : BitVec 16 := c.word.extractLsb' 8 16

/-- `b`, bits 7 to 0 (rule R85). -/
def Cmd.b (c : Cmd) : BitVec 8 := c.word.extractLsb' 0 8

/-- The operation of the opcode with no use of `a` or `b`. -/
def Cmd.plain (c : Cmd) (i : Instr) : Except Reject Instr :=
  if c.a = 0#16 ∧ c.b = 0#8 then .ok i else .error .unusedBits

/-- The operation of the opcode that uses `a` alone. -/
def Cmd.withA (c : Cmd) (f : BitVec 16 → Instr) : Except Reject Instr :=
  if c.b = 0#8 then .ok (f c.a) else .error .unusedBits

/-- The operation of the opcode that uses `b[0]` alone (`LINE`, `FRAME`). -/
def Cmd.withEnable (c : Cmd) (f : Bool → Instr) : Except Reject Instr :=
  if c.a = 0#16 ∧ c.b.extractLsb' 1 7 = 0#7 then .ok (f (c.b.getLsbD 0)) else .error .unusedBits

/-- The operation of the opcode that uses `b[3:0]` alone (`SETVOL`). -/
def Cmd.withLevel (c : Cmd) (f : BitVec 4 → Instr) : Except Reject Instr :=
  if c.a = 0#16 ∧ c.b.extractLsb' 4 4 = 0#4 then .ok (f (c.b.extractLsb' 0 4)) else .error .unusedBits

/-- The word's operation, before the image is looked at (rules R86, R87, R88). -/
def Cmd.operation (c : Cmd) : Except Reject Instr :=
  if c.op = 0x01#8 then .ok (.portw c.a c.b)
  else if c.op = 0x02#8 then c.withA .portr
  else if c.op = 0x10#8 then c.withEnable .line
  else if c.op = 0x11#8 then c.plain .eof
  else if c.op = 0x12#8 then c.withEnable .frame
  else if c.op = 0x13#8 then c.plain .steady
  else if c.op = 0x20#8 then c.plain (.tload c.image)
  else if c.op = 0x21#8 then c.plain .tboot
  else if c.op = 0x22#8 then c.withA .pulse
  else if c.op = 0x23#8 then c.withA .tblock
  else if c.op = 0x24#8 then c.plain .tpause
  else if c.op = 0x25#8 then c.plain (.tplay c.image)
  else if c.op = 0x30#8 then c.withLevel .setvol
  else if c.op = 0x31#8 then c.plain .post
  else if c.op = 0x32#8 then c.plain .take
  else if c.op = 0x33#8 then c.plain .render
  else if c.op = 0x34#8 then c.plain .submit
  else if c.op = 0x35#8 then c.plain .wait
  else if c.op = 0x36#8 then c.plain .flip
  else if c.op = 0x37#8 then c.plain .aperiod
  else if c.op = 0x38#8 then c.plain .sinkdone
  else if c.op = 0xF0#8 then c.plain .preset
  else if c.op = 0xF1#8 then c.plain .mreset
  else if c.op = 0xF2#8 then c.plain .lasterr
  else .error .reservedOp

/-- The opcodes that take an image beside the word, `TLOAD` and `TPLAY` (rule R85). -/
def Cmd.takesImage (c : Cmd) : Bool := c.op = 0x20#8 || c.op = 0x25#8

/-- The operation a command names, or why it names none (rules R85 to R88). -/
def decode (c : Cmd) : Except Reject Instr :=
  match c.operation with
  | .error e => .error e
  | .ok i => if c.image = [] ∨ c.takesImage = true then .ok i else .error .imageNotTaken

/-- The word with the three fields of rule R85. -/
def fields (op : BitVec 8) (a : BitVec 16) (b : BitVec 8) : Word := op ++ a ++ b

/-- The word of an operation (rules R85, R86, R87). -/
def Instr.word : Instr → Word
  | .portw port data => fields 0x01#8 port data
  | .portr port => fields 0x02#8 port 0#8
  | .line en => fields 0x10#8 0#16 (bif en then 1#8 else 0#8)
  | .eof => fields 0x11#8 0#16 0#8
  | .frame en => fields 0x12#8 0#16 (bif en then 1#8 else 0#8)
  | .steady => fields 0x13#8 0#16 0#8
  | .tload _ => fields 0x20#8 0#16 0#8
  | .tboot => fields 0x21#8 0#16 0#8
  | .pulse w => fields 0x22#8 w 0#8
  | .tblock i => fields 0x23#8 i 0#8
  | .tpause => fields 0x24#8 0#16 0#8
  | .tplay _ => fields 0x25#8 0#16 0#8
  | .setvol level => fields 0x30#8 0#16 (0#4 ++ level)
  | .post => fields 0x31#8 0#16 0#8
  | .take => fields 0x32#8 0#16 0#8
  | .render => fields 0x33#8 0#16 0#8
  | .submit => fields 0x34#8 0#16 0#8
  | .wait => fields 0x35#8 0#16 0#8
  | .flip => fields 0x36#8 0#16 0#8
  | .aperiod => fields 0x37#8 0#16 0#8
  | .sinkdone => fields 0x38#8 0#16 0#8
  | .preset => fields 0xF0#8 0#16 0#8
  | .mreset => fields 0xF1#8 0#16 0#8
  | .lasterr => fields 0xF2#8 0#16 0#8

/-- The image beside the word (rule R85). -/
def Instr.image : Instr → List Byte
  | .tload img => img
  | .tplay img => img
  | .portw _ _ => []
  | .portr _ => []
  | .line _ => []
  | .eof => []
  | .frame _ => []
  | .steady => []
  | .tboot => []
  | .pulse _ => []
  | .tblock _ => []
  | .tpause => []
  | .setvol _ => []
  | .post => []
  | .take => []
  | .render => []
  | .submit => []
  | .wait => []
  | .flip => []
  | .aperiod => []
  | .sinkdone => []
  | .preset => []
  | .mreset => []
  | .lasterr => []

/-- The command that names an operation. -/
def encode (i : Instr) : Cmd := ⟨i.word, i.image⟩

/-- What the decoder reads from the word `w` of `nbits` bits, no image beside it. Every command is one word of 32 bits
(rule R85), so a longer one is no command; bits above `nbits` are 0. -/
def decodeTableWord (nbits w : Nat) : Option Instr :=
  if nbits ≤ 32 then
    match decode ⟨BitVec.ofNat 32 (w % 2 ^ nbits), []⟩ with
    | .ok i => some i
    | .error _ => none
  else none

end Sys2Proof
end

