-- ==== Sys2Proof/Machine/State.lean ====
section
/-!
DEFINITION. The state as plain data, all that spec/10_state.md gives the machine, in groups; the records of what rule
R221 calls observable; the environment a run is made of (rule R220); and the state right after reset (rule R256).
-/
namespace Sys2Proof.Machine

/-! ### Closed sets of names -/

/-- Which producer filled a frame (rules R34, R36). -/
inductive Source where
  | beeper
  | tape
  deriving DecidableEq, Repr

/-- `APH`, the position of the audio context in its period (rule R40). -/
inductive APhase where
  | take
  | render
  | submit
  | wait
  | flip
  deriving DecidableEq, Repr

/-- `TST`, the position of the tape sequencer (rule R44). -/
inductive TState where
  | idle
  | boot
  | pulses
  | pause
  deriving DecidableEq, Repr

/-- Why a command is refused (rules R14 d, R88). The spec reports a refusal and gives it no reason; the reasons and their
order are DESIGN CHOICE (notes/assumptions/38.md). -/
inductive Why where
  /-- the word names no operation, or uses a bit or an image it must not -/
  | undecodable (r : Reject)
  /-- issued by an agent rule R86 does not list for it -/
  | wrongAgent
  /-- `FAULT` = 1 (rules R30, R228) -/
  | faulted
  /-- a sequencer position the operation's rule excludes -/
  | position
  /-- an operand out of range -/
  | operand
  /-- a port operation with no `Cpu.run` call in progress (rule R117) -/
  | outsideRun
  deriving DecidableEq, Repr

/-- The reasons a step stops the machine. -/
inductive Fault where
  /-- Raised by `WAIT` alone, when the sink holds two frames and no other agent has anything left to issue: the run
  is stuck (rule R220 c, U13). Safe: the block would go on once the sink finished a frame, and the model stops.
  (The block's own fatal fault of rule R227 is a next state: `State.raise`.) -/
  | stuck
  deriving DecidableEq, Repr

/-- The reasons a step has no meaning. -/
inductive Refusal where
  /-- Raised by an arm of `exec` for an operation that has no meaning yet; no arm raises it now. Safe. (A command that
  the spec says is refused is a next state with a report, `State.refuse`: notes/assumptions/2.md.) -/
  | notModelled (mnemonic : String)
  deriving DecidableEq, Repr

/-! ### The block's state -/

/-- Interface latches (rules R20, R21, R22). -/
structure Latches where
  /-- `BEEP` -/
  beep : Bool
  /-- `EAR` -/
  ear : Bool
  /-- `BORDER` -/
  border : BitVec 3
  deriving DecidableEq, Repr

/-- Frame accumulator (rules R24 to R29). -/
structure FrameAcc where
  /-- `LINE` -/
  line : Nat
  /-- `DUR` -/
  dur : Nat
  /-- `SEEN` -/
  seen : Bool
  /-- `ACC` -/
  acc : LineFrame
  /-- `FCYC` -/
  fcyc : Nat
  /-- `DIAG` -/
  diag : CpuRegs
  /-- `DIAG_VALID` -/
  diagValid : Bool
  deriving DecidableEq, Repr

/-- Fault and error state (rules R30, R31). -/
structure Errors where
  /-- `FAULT` -/
  fault : Bool
  /-- `FCODE` -/
  fcode : ErrCode
  /-- `TERR` -/
  terr : ErrCode
  deriving DecidableEq, Repr

/-- Mailbox (rules R32, R33, R34). -/
structure Mailbox where
  /-- `MB` -/
  mb : LineFrame
  /-- `MB_READY` -/
  ready : Bool
  /-- `MB_SRC` -/
  src : Source
  deriving DecidableEq, Repr

/-- Audio pipeline (rules R35 to R40). -/
structure Audio where
  /-- `VOL` -/
  vol : Nat
  /-- `CUR` -/
  cur : LineFrame
  /-- `CUR_SRC` -/
  curSrc : Source
  /-- `CUR_VALID` -/
  curValid : Bool
  /-- `PCM[0]` and `PCM[1]` -/
  pcm : Vector PcmFrame 2
  /-- `AB` -/
  ab : Fin 2
  /-- `SPREV` -/
  sprev : Int
  /-- `APH` -/
  aph : APhase
  deriving DecidableEq, Repr

/-- Tape generator (rules R42 to R49). -/
structure Tape where
  /-- `TIMG` -/
  timg : List Byte
  /-- `TBLK`, pairs (off, len) -/
  tblk : List (Nat × Nat)
  /-- `TST` -/
  tst : TState
  /-- `TBI` -/
  tbi : Nat
  /-- `TPI` -/
  tpi : Nat
  /-- `TPHASE` -/
  tphase : Nat
  /-- `TLN` -/
  tln : Nat
  /-- `TACC` -/
  tacc : LineFrame
  /-- `TFR` -/
  tfr : Nat
  /-- `TDONE` -/
  tdone : Nat
  deriving DecidableEq, Repr

/-! ### The external agents, as far as the rules mention them -/

/-- The sink's queue and the block's two outputs (rules R41, R50). -/
structure Outputs where
  /-- `SQ`, oldest first -/
  sq : List PcmFrame
  /-- `OUT`, in order of submission -/
  out : List PcmFrame
  /-- `RLOG`, each call tagged with `(TBI, TPI)` -/
  rlog : List (Nat × Nat)
  deriving DecidableEq, Repr

/-- Which operation made the `Cpu.run` call in progress, with what it still needs to know. -/
inductive RunUser where
  /-- `LINE en` -/
  | line (en : Bool)
  /-- one chunk of a `PULSE` that has `rem` cycles still to run, this chunk included -/
  | chunk (rem : Nat)
  deriving DecidableEq, Repr

/-- A `Cpu.run` call in progress (rules R117, R243): the cycles asked for, the caller, the commands the unit has still
to issue in it, and what it will return and show. -/
structure Run where
  asked : Nat
  user : RunUser
  ops : List Cmd
  count : Nat
  regs : CpuRegs
  deriving DecidableEq, Repr

/-- The CPU unit as the block sees it (rules R23, R51, R243). -/
structure CpuView where
  /-- `Cpu.regs` -/
  regs : CpuRegs
  /-- the call in progress, if one is -/
  run : Option Run
  deriving DecidableEq, Repr

/-- A call the block makes on the CPU unit (rules R221, R243). -/
inductive CpuCall where
  | run (cycles : Nat)
  | reset
  | interrupt (vector : BitVec 8)
  deriving DecidableEq, Repr

/-- A value an operation returns to its issuer (rule R85). -/
inductive Answer where
  | byte (b : Byte)
  | bool (b : Bool)
  | code (e : ErrCode)
  deriving DecidableEq, Repr

/-- The report of a refused command (rules R14 d, R221). -/
structure RefusedCmd where
  agent : Agent
  cmd : Cmd
  why : Why
  deriving DecidableEq, Repr

/-- A request of `TBOOT` to the host (rules R156, R219). -/
inductive KeyAction where
  | press (k : Chord)
  | release (k : Chord)
  deriving DecidableEq, Repr

/-- What rule R221 says is observable of a run, beside `OUT`, `RLOG` and the fault, and the log of the fatal fault
(rules R219, R227); oldest first. -/
structure Records where
  returns : List (Agent × Answer)
  calls : List CpuCall
  refused : List RefusedCmd
  faultLog : List ErrCode
  keys : List KeyAction
  deriving DecidableEq, Repr

/-! ### The environment of a run (rule R220) -/

/-- One part of a composite that is under way (rule R104). -/
inductive Task where
  /-- issue this operation -/
  | op (i : Instr)
  /-- run the next chunk of a pulse with `rem` cycles to go (rule R150) -/
  | chunk (rem : Nat)
  /-- start pulse `k` of block `TBI`, or end the block (rule R153) -/
  | blockPulse (k : Nat)
  /-- ask the host to press a chord (rule R156) -/
  | keyPress (k : Chord)
  /-- ask the host to release a chord (rule R156) -/
  | keyRelease (k : Chord)
  /-- steps 2 to 5 of `TPLAY` (rule R158) -/
  | playLoad (img : List Byte)
  /-- step 6 of `TPLAY` for block `i`, or step 7 (rule R158) -/
  | playBlock (i : Nat)
  /-- the pause after block `i` (rule R158) -/
  | playPause (i : Nat)
  deriving DecidableEq, Repr

/-- The commands each agent has still to issue. -/
structure Pending where
  p : List Cmd
  c : List Cmd
  a : List Cmd
  s : List Cmd
  h : List Cmd
  deriving DecidableEq, Repr

/-- What a run is given from outside the block, no state of the block: the commands (rule R220) and the answers still to
come, as unconstrained fields (U3, U6, U11, U12, U15; DESIGN CHOICE, notes/assumptions/37.md). The schedule is no field: it is
the parameter of `stepAs`, and a draw in `step` (rule R54). -/
structure Inputs where
  cmds : Pending
  /-- answers to `Cpu.run` still to come -/
  runs : List RunAnswer
  /-- registers shown after `Cpu.reset` and `Cpu.interrupt`, still to come -/
  regsAfter : List CpuRegs
  /-- open bits of even-port reads still to come -/
  reads : List ReadInput
  /-- values of `alloc_ok` still to come -/
  allocs : List Bool
  deriving DecidableEq, Repr

/-- What makes a run beside the block: its inputs, whose turn it is, composites under way, the counter of the draws. The
model's own fields (notes/assumptions/1.md, 4.md, 6.md, 7.md, 34.md, 37.md). -/
structure Env extends Inputs where
  /-- the agent whose operation is being executed -/
  issuer : Agent
  /-- the rest of the composite the primary context is in -/
  pWork : List Task
  /-- the rest of the composite the audio context is in -/
  aWork : List Task
  /-- how many values have been drawn from Config's free functions -/
  draws : Nat
  deriving DecidableEq, Repr

/-- The block and what the rules say of the agents outside it, all that spec/10_state.md gives. -/
structure Block where
  lat : Latches
  frm : FrameAcc
  err : Errors
  mbx : Mailbox
  aud : Audio
  tap : Tape
  snk : Outputs
  cpu : CpuView
  deriving DecidableEq, Repr

/-- The state of the machine: the block, the records of what is observable of the run, and the run's environment. -/
structure State extends Block where
  log : Records
  env : Env
  deriving DecidableEq, Repr

/-- `TLEN`, the length of the buffered tape image (rule R42). -/
def State.tlen (s : State) : Nat := s.tap.timg.length

/-! ### Reset values (rule R256) -/

/-- The interface latches after `PRESET`, given the border (rules R20, R21, R22). -/
def Latches.preset (border : BitVec 3) : Latches := { beep := false, ear := false, border := border }

/-- The frame accumulator after `PRESET`, given `DIAG` (rules R24 to R29). -/
def FrameAcc.preset (diag : CpuRegs) : FrameAcc :=
  { line := 0, dur := 0, seen := false, acc := Vector.replicate 312 0, fcyc := 0, diag := diag, diagValid := false }

/-- Fault and error state after `PRESET` (rules R30, R31). -/
def Errors.preset : Errors := { fault := false, fcode := .none, terr := .none }

/-- The mailbox after `PRESET` (rules R32, R33, R34). -/
def Mailbox.preset : Mailbox := { mb := Vector.replicate 312 0, ready := false, src := .beeper }

/-- The audio pipeline after `PRESET` (rules R35 to R40). -/
def Audio.preset : Audio :=
  { vol := Config.volReset, cur := Vector.replicate 312 0, curSrc := .beeper, curValid := false
    pcm := Vector.replicate 2 (Vector.replicate 320 0), ab := 0, sprev := 0, aph := .take }

/-- The tape generator after `PRESET` (rules R42 to R49). -/
def Tape.preset : Tape :=
  { timg := [], tblk := [], tst := .idle, tbi := 0, tpi := 0, tphase := 0, tln := 0
    tacc := Vector.replicate 312 0, tfr := 0, tdone := 0 }

/-- The outputs after `PRESET` (rules R41, R50). -/
def Outputs.preset : Outputs := { sq := [], out := [], rlog := [] }

/-- A register block of zeros: the value State.reset gives `Cpu.regs` and `DIAG`, for which the spec states none
(DESIGN CHOICE, notes/assumptions/9.md and 11.md). -/
def zeroRegs : CpuRegs :=
  { af := 0, bc := 0, de := 0, hl := 0, ix := 0, iy := 0, sp := 0, pc := 0, afAlt := 0, bcAlt := 0, deAlt := 0
    hlAlt := 0, i := 0, r := 0, iff1 := false, iff2 := false, im := .im0 }

/-- No records. -/
def Records.empty : Records := { returns := [], calls := [], refused := [], faultLog := [], keys := [] }

/-- No commands, nothing under way, nothing scripted. -/
def Env.empty : Env :=
  { issuer := .p, cmds := { p := [], c := [], a := [], s := [], h := [] }, pWork := [], aWork := []
    runs := [], regsAfter := [], reads := [], allocs := [], draws := 0 }

/-- The machine right after reset (rule R256). -/
def State.reset : State :=
  { lat := Latches.preset 0, frm := FrameAcc.preset zeroRegs, err := Errors.preset, mbx := Mailbox.preset
    aud := Audio.preset, tap := Tape.preset, snk := Outputs.preset, cpu := { regs := zeroRegs, run := none }
    log := Records.empty, env := Env.empty }

end Sys2Proof.Machine
end

