-- ==== Sys2Proof/Machine/Flags.lean ====
section
/-!
DEFINITION. Every condition the operations test: the refusal conditions common to all operations and of each one
(rules R14, R30, R88, R117 and the "Refused if" of each operation's rule), the interrupt condition (rules R132, R234),
and the check of a returned cycle count (rules R128, R129).
-/
namespace Sys2Proof.Machine

/-- Why an operation issuable by `agents` is refused: the issuer is not one of them, or `FAULT` = 1, or `own`, the
operation's own reason (rules R88, R228). Which reason is reported when several hold, here and among an operation's own
reasons below, is DESIGN CHOICE: the agent first, then the fault, then `own` (notes/assumptions/38.md). -/
def State.barred (s : State) (agents : List Agent) (own : Option Why) : Option Why :=
  if s.env.issuer ∈ agents then if s.err.fault then some .faulted else own else some .wrongAgent

/-- Why an operation accepted in every state is refused: only for its issuer (rules R215, R217). -/
def State.barredIssuer (s : State) (agents : List Agent) : Option Why :=
  if s.env.issuer ∈ agents then none else some .wrongAgent

/-- `LINE` != 0: a frame is half run. -/
def State.midFrame (s : State) : Option Why := if s.frm.line = 0 then none else some .position

/-- Tape pulses are being played: `TST` is `T_PULSES` or `T_PAUSE` (rules R126, R133). -/
def State.tapePlaying (s : State) : Bool := s.tap.tst = .pulses || s.tap.tst = .pause

/-- A tape load is in progress: `TST` is not `T_IDLE` (rules R146, R158, R216). -/
def State.loading (s : State) : Option Why := if s.tap.tst = .idle then none else some .position

/-- The audio context is not at `ph` (rule R40). -/
def State.offPhase (s : State) (ph : APhase) : Option Why := if s.aud.aph = ph then none else some .position

/-- `PORTW`, `PORTR`: only while a `Cpu.run` call is in progress (rule R117). -/
def State.portWhy (s : State) : Option Why :=
  s.barred [.c] (if s.cpu.run.isSome then none else some .outsideRun)

/-- `LINE` (rule R126). -/
def State.lineWhy (s : State) : Option Why :=
  s.barred [.p] (if Config.nLines ≤ s.frm.line ∨ s.tapePlaying = true then some .position else none)

/-- `EOF` (rule R132). -/
def State.eofWhy (s : State) : Option Why :=
  s.barred [.p] (if s.frm.line = Config.nLines then none else some .position)

/-- `FRAME` (rule R133), and `STEADY` and `TBOOT`, whose first primitive is the same `LINE` (rules R104, R134, R156). -/
def State.frameWhy (s : State) : Option Why :=
  s.barred [.p] (if s.tapePlaying then some .position else s.midFrame)

/-- `TLOAD` (rule R146). -/
def State.tloadWhy (s : State) : Option Why := s.barred [.p] s.loading

/-- `PULSE` (rule R150). -/
def State.pulseWhy (s : State) (w : Nat) : Option Why :=
  s.barred [.p] (if w = 0 then some .operand else s.midFrame)

/-- `TBLOCK` (rule R153). -/
def State.tblockWhy (s : State) (i : Nat) : Option Why :=
  s.barred [.p] (if i < s.tap.tblk.length then s.midFrame else some .operand)

/-- `TPAUSE` (rule R155). -/
def State.tpauseWhy (s : State) : Option Why := s.barred [.p] none

/-- `TPLAY` (rule R158). -/
def State.tplayWhy (s : State) : Option Why :=
  s.barred [.p] (match s.loading with | some w => some w | none => s.midFrame)

/-- `SETVOL` (rule R181). -/
def State.setvolWhy (s : State) (level : BitVec 4) : Option Why :=
  s.barred [.h, .p] (if level.toNat ≤ Config.volMax then none else some .operand)

/-- `POST` (rule R182). -/
def State.postWhy (s : State) : Option Why := s.barred [.p] s.midFrame

/-- The audio context's operations, each at its own position (rules R183, R184, R194, R195, R197, R198). -/
def State.audioWhy (s : State) (ph : APhase) : Option Why := s.barred [.a] (s.offPhase ph)

/-- `SINKDONE` (rule R196). -/
def State.sinkdoneWhy (s : State) : Option Why :=
  s.barred [.s] (if s.snk.sq = [] then some .position else none)

/-- `MRESET` (rule R216). -/
def State.mresetWhy (s : State) : Option Why := s.barred [.p] s.loading

/-- `Cpu.regs.IFF1` = 1 and `Cpu.regs.IM` = 1 (rules R132, R234). -/
def State.wantsInterrupt (s : State) : Bool := s.cpu.regs.iff1 && s.cpu.regs.im = .im1

/-- The fault a returned cycle count raises, if any (rules R128, R129, R239). -/
def countFault (asked count : Nat) : Option ErrCode :=
  if count = 0 then some .cpuZero else if count ≠ asked then some .cpuCount else none

/-- Whether an agent other than the audio context has anything left to issue (rule R220 c). -/
def State.othersPending (s : State) : Bool :=
  !(s.env.pWork.isEmpty && s.env.cmds.p.isEmpty && s.env.cmds.c.isEmpty && s.env.cmds.s.isEmpty && s.env.cmds.h.isEmpty)

end Sys2Proof.Machine
end

