-- ==== Sys2Proof/Machine/Operands.lean ====
section
/-!
DEFINITION. Every operand form: the port address and the two port data bytes (rules R89, R90, R91, R115, R116), the
tape image stream (rules R92, R93, R94, R146) and the pulse code of a block (rules R96, R97, R148, R149).
-/
namespace Sys2Proof.Machine

/-! ### Port accesses -/

/-- The port address reaches the block's latches: bit 0 is 0 (rules R66, R91). -/
def portEven (port : BitVec 16) : Bool := !port.getLsbD 0

/-- The high byte of the port address, which selects keyboard half-rows (rule R91). -/
def portHigh (port : BitVec 16) : Byte := port.extractLsb' 8 8

/-- `data[2:0]`, the border (rule R89). -/
def borderField (data : Byte) : BitVec 3 := data.extractLsb' 0 3

/-- `data[4]`, the beeper (rule R89). -/
def beeperField (data : Byte) : Bool := data.getLsbD 4

/-- The byte an even-port read returns: bit 7 open, bit 6 `EAR`, bit 5 open, bits 4 to 0 the keyboard (rule R90). -/
def readByte (ear : Bool) (x : ReadInput) : Byte :=
  BitVec.ofBool x.bit7 ++ BitVec.ofBool ear ++ BitVec.ofBool x.bit5 ++ x.kbd

/-! ### The tape image -/

/-- The length a record's two prefix bytes declare, the lower index less significant (rule R93). -/
def recordLength (lo hi : Byte) : Nat := lo.toNat + 256 * hi.toNat

/-- The flag byte is one of the two that rule R94 names. -/
def flagOk (b : Byte) : Bool := b = Config.flagHdr || b = Config.flagData

/-- The parser of rule R146, on the bytes from index `p` on, of which the first `skip` belong to the payload of a
record already accepted. The checks of one record stand in the order of rule R239. -/
def parseFrom : List Byte → Nat → Nat → Except ErrCode (List (Nat × Nat))
  | [], _, _ => .ok []
  | _ :: bs, skip + 1, p => parseFrom bs skip (p + 1)
  | [_], 0, _ => .error .tapeTrunc
  | lo :: hi :: rest, 0, p =>
    let n := recordLength lo hi
    if rest.length < n then .error .tapeLen
    else if n = 0 then .error .tapeFraming
    else if rest.head?.any flagOk = false then .error .tapeFraming
    else
      match parseFrom rest n (p + 2) with
      | .ok blocks => .ok ((p + 2, n) :: blocks)
      | .error e => .error e

/-- The blocks of a tape image, or the first failing record's error (rules R146, R147). -/
def parseTape (img : List Byte) : Except ErrCode (List (Nat × Nat)) := parseFrom img 0 0

/-- The payload bytes of a block `(off, len)` (rule R43). -/
def payload (timg : List Byte) (blk : Nat × Nat) : List Byte := (timg.drop blk.1).take blk.2

/-! ### The pulse code -/

/-- `N(i)`, the pilot count: by the flag byte, the first of the payload (rule R148). -/
def pilotCount (d : List Byte) : Nat :=
  if d.head? = some Config.flagHdr then Config.nPilotHdr else Config.nPilotData

/-- The width of each of the two pulses of a data bit (rule R96). -/
def bitWidth (b : Bool) : Nat := if b then Config.tBit1 else Config.tBit0

/-- The sixteen pulses of a byte, bit 7 first, two for each bit (rules R96, R97). -/
def bytePulses (d : Byte) : List Nat :=
  [7, 6, 5, 4, 3, 2, 1, 0].flatMap fun k => [bitWidth (d.getLsbD k), bitWidth (d.getLsbD k)]

/-- The pulse list of a block with payload `d` (rule R149). -/
def pulses (d : List Byte) : List Nat :=
  List.replicate (pilotCount d) Config.tPilot ++ [Config.tSync1, Config.tSync2] ++ d.flatMap bytePulses

/-- The length of the pulse list (rule R149). -/
def pulseCount (d : List Byte) : Nat := pilotCount d + 2 + 16 * d.length

/-- Element `k` of the pulse list, found without building the list. -/
def pulseAt (d : List Byte) (k : Nat) : Nat :=
  if k < pilotCount d then Config.tPilot
  else if k = pilotCount d then Config.tSync1
  else if k = pilotCount d + 1 then Config.tSync2
  else
    let m := k - (pilotCount d + 2)
    bitWidth ((d[m / 16]?.getD 0).getLsbD (7 - m % 16 / 2))

end Sys2Proof.Machine
end

