-- ==== Sys2Proof/Machine/Ops.lean ====
section
/-!
DEFINITION. The named operations the meanings are made of: refusing a command, returning a value, drawing an open
value, calls on the CPU unit, the fatal fault (rule R227) and the frame interrupt request (rules R233 to R235), the two
port accesses (rules R115, R116), one `Cpu.run` call (rule R243), the tape line emission and frame completion (rules
R151, R152), the mailbox write (rule R69).
-/
namespace Sys2Proof.Machine

/-! ### Outcomes of an operation (rule R14) -/

/-- A refused command: nothing of the block changes, the refusal is reported, and a composite of the issuer that it
was a part of ends (rules R14 d, R104, R231; notes/assumptions/2.md, 3.md). -/
def State.refuse (s : State) (c : Cmd) (why : Why) : State :=
  { s with
    log.refused := s.log.refused ++ [{ agent := s.env.issuer, cmd := c, why := why }]
    env.pWork := if s.env.issuer = .p then [] else s.env.pWork
    env.aWork := if s.env.issuer = .a then [] else s.env.aWork }

/-- The state after operation `i`: the refusal if there is a reason for one, else the effect. -/
def State.attempt (s : State) (i : Instr) (why : Option Why) (effect : State) : State :=
  match why with
  | some w => s.refuse (encode i) w
  | none => effect

/-- A value returned to the issuer (rule R85). -/
def State.giveBack (s : State) (x : Answer) : State :=
  { s with log.returns := s.log.returns ++ [(s.env.issuer, x)] }

/-! ### Draws of open values (spec/93_implementation_defined.md): scripted while a script lasts, free after it -/

/-- The CPU unit's answer to the next `Cpu.run` call (U11). -/
def State.drawRun (s : State) : RunAnswer × State :=
  match s.env.runs with
  | x :: xs => (x, { s with env.runs := xs })
  | [] => (Config.freeRun s.env.draws, { s with env.draws := s.env.draws + 1 })

/-- The registers the CPU unit shows after `Cpu.reset` or `Cpu.interrupt` (U11, U12). -/
def State.drawRegs (s : State) : CpuRegs × State :=
  match s.env.regsAfter with
  | x :: xs => (x, { s with env.regsAfter := xs })
  | [] => (Config.freeRegs s.env.draws, { s with env.draws := s.env.draws + 1 })

/-- The open bits of the next even-port read, at the port's high byte (U3, U6). -/
def State.drawRead (s : State) (high : Byte) : ReadInput × State :=
  match s.env.reads with
  | x :: xs => (x, { s with env.reads := xs })
  | [] => (Config.freeRead s.env.draws high, { s with env.draws := s.env.draws + 1 })

/-- `alloc_ok` of the next `TLOAD` (U15). -/
def State.drawAlloc (s : State) : Bool × State :=
  match s.env.allocs with
  | x :: xs => (x, { s with env.allocs := xs })
  | [] => (Config.freeAlloc s.env.draws, { s with env.draws := s.env.draws + 1 })

/-- The border, left unspecified by a reset (U1, rule R22). -/
def State.freeBorder (s : State) : State :=
  { s with lat.border := Config.freeBorder s.env.draws, env.draws := s.env.draws + 1 }

/-! ### Calls on the CPU unit (rule R243) -/

/-- `Cpu.reset()`. -/
def State.cpuReset (s : State) : State :=
  { s.drawRegs.2 with cpu.regs := s.drawRegs.1, log.calls := s.log.calls ++ [.reset] }

/-- `Cpu.interrupt(INT_VECTOR)`. -/
def State.cpuInterrupt (s : State) : State :=
  { s.drawRegs.2 with cpu.regs := s.drawRegs.1, log.calls := s.log.calls ++ [.interrupt Config.intVector] }

/-- The frame interrupt request: made if interrupts are enabled and the mode is 1, else dropped (rules R132, R234). -/
def State.frameInterrupt (s : State) : State := if s.wantsInterrupt then s.cpuInterrupt else s

/-! ### Taking the fatal fault, and what returns from it -/

/-- Entry into the fatal fault (rule R227): `FAULT` and `FCODE` written, the fault logged, what was already done stays,
the primary context's composite ends. There is no handler and no vector; the only return is `PRESET` (rule R228),
`State.powerOn`. -/
def State.raise (s : State) (f : ErrCode) : State :=
  { s with
    err.fault := true
    err.fcode := f
    log.faultLog := s.log.faultLog ++ [f]
    env.pWork := [] }

/-- `PRESET` (rule R215): every element of the block at its reset value, the outputs empty, `Cpu.reset()` called, both
contexts at their start (rule R246). The border and `DIAG` are free values (rules R22, R29). Composites under way and a
run in progress end; pending commands, scripts and records are not the block's and stay (DEDUCED,
notes/assumptions/16.md). A held `WAIT`, one that `A` issued on its own included, is dropped with no refusal (DESIGN
CHOICE, notes/assumptions/35.md). -/
def State.powerOn (s : State) : State :=
  { s.cpuReset with
    lat := Latches.preset (Config.freeBorder s.cpuReset.env.draws)
    frm := FrameAcc.preset (Config.freeRegs (s.cpuReset.env.draws + 1))
    err := Errors.preset
    mbx := Mailbox.preset
    aud := Audio.preset
    tap := Tape.preset
    snk := Outputs.preset
    cpu.run := none
    env.pWork := []
    env.aWork := []
    env.draws := s.cpuReset.env.draws + 2 }

/-- `MRESET` (rule R216): `Cpu.reset()`, the two latches and the frame scheduler's position. The border is outside the
block and a free value after it (rule R22). -/
def State.machineReset (s : State) : State :=
  { s.cpuReset.freeBorder with
    lat.beep := false
    lat.ear := false
    frm.line := 0
    frm.dur := 0
    frm.seen := false
    frm.fcyc := 0 }

/-! ### Port accesses (rules R115, R116, R118) -/

/-- The state change of `PORTW`. -/
def State.portWrite (s : State) (port : BitVec 16) (data : Byte) : State :=
  if portEven port then
    { s with
      lat.border := borderField data
      lat.beep := beeperField data
      frm.seen := s.frm.seen || beeperField data }
  else s

/-- `PORTR`: the byte goes back to the CPU unit; the block does not change. -/
def State.portRead (s : State) (port : BitVec 16) : State :=
  if portEven port then
    (s.drawRead (portHigh port)).2.giveBack (.byte (readByte s.lat.ear (s.drawRead (portHigh port)).1))
  else s.giveBack (.byte Config.floatBus)

/-- `PORTW port, data`, refusals included (rules R115, R117). -/
def State.doPortw (s : State) (port : BitVec 16) (data : Byte) : State :=
  s.attempt (.portw port data) s.portWhy (s.portWrite port data)

/-- `PORTR port`, refusals included (rules R116, R117). -/
def State.doPortr (s : State) (port : BitVec 16) : State :=
  s.attempt (.portr port) s.portWhy (s.portRead port)

/-- One command of the CPU unit inside a run: a port operation is carried out, anything else is refused, since no other
operation may be issued by agent `C` (rule R88). -/
def State.issueInRun (s : State) (c : Cmd) : State :=
  match decode c with
  | .ok (.portw port data) => s.doPortw port data
  | .ok (.portr port) => s.doPortr port
  | .ok _ => s.refuse c .wrongAgent
  | .error e => s.refuse c (.undecodable e)

/-! ### The mailbox and the refresh callback -/

/-- The critical section of a producer: the slot, its source and the ready flag together (rules R69, R70). -/
def State.postFrame (s : State) (F : LineFrame) (src : Source) : State :=
  { s with mbx := { mb := F, ready := true, src := src } }

/-- One `Refresh()` call, tagged with its position (rules R50, R245). -/
def State.refresh (s : State) : State :=
  { s with snk.rlog := s.snk.rlog ++ [(s.tap.tbi, s.tap.tpi)] }

/-! ### Tape lines and tape frames -/

/-- The refresh throttle (rule R164). -/
def State.throttledRefresh (s : State) : State :=
  if 0 < Config.refreshPeriod ∧ s.tap.tfr % Config.refreshPeriod = 0 then s.refresh else s

/-- The tape frame completion (rule R152). -/
def State.completeFrame (s : State) : State :=
  let s1 := (s.postFrame s.tap.tacc .tape).frameInterrupt
  { s1 with tap.tln := 0, tap.tfr := s1.tap.tfr + 1 }.throttledRefresh

/-- The tape line emission (rule R151). -/
def State.emitLine (s : State) : State :=
  let s1 := { s with tap.tacc := s.tap.tacc.setIfInBounds s.tap.tln (if s.lat.ear then Config.tLine else 0) }
  if s1.tap.tln = Config.nLines - 1 then s1.completeFrame else { s1 with tap.tln := s1.tap.tln + 1 }

/-! ### One `Cpu.run` call (rules R126, R150, R243) -/

/-- The call is made: the unit's answer is drawn, the call is recorded, and agent `C` may act. -/
def State.openRun (s : State) (asked : Nat) (user : RunUser) : State :=
  { s.drawRun.2 with
    cpu.run := some { asked := asked, user := user, ops := s.drawRun.1.ops, count := s.drawRun.1.count, regs := s.drawRun.1.regs }
    log.calls := s.log.calls ++ [.run asked]
    env.issuer := .c }

/-- The first of the commands the unit has still to issue in the run is taken off. -/
def State.popRunOp (s : State) : State :=
  { s with cpu.run := s.cpu.run.map fun r => { r with ops := r.ops.tail } }

/-- The CPU unit issues these commands, in order, inside the run. -/
def State.runOps : List Cmd → State → State
  | [], s => s
  | c :: cs, s => State.runOps cs (s.popRunOp.issueInRun c)

/-- Steps 5 to 8 of `LINE en` after a run of `n` cycles (rule R126). -/
def State.lineStore (s : State) (en : Bool) (n : Nat) : State :=
  let dur := if s.frm.seen then s.frm.dur + n else s.frm.dur
  { s with
    frm.dur := dur
    frm.acc := if en then s.frm.acc.setIfInBounds s.frm.line dur else s.frm.acc
    frm.fcyc := s.frm.fcyc + n
    frm.line := s.frm.line + 1 }

/-- The rest of a `PULSE` chunk after its run of `c` cycles, with `rem` cycles to go before it (rule R150). -/
def State.chunkStore (s : State) (rem c : Nat) : State :=
  let s1 := { s with
    tap.tphase := s.tap.tphase + c
    env.pWork := if 0 < rem - c then .chunk (rem - c) :: s.env.pWork else s.env.pWork }
  if s1.tap.tphase = Config.tLine then { s1 with tap.tphase := 0 }.emitLine else s1

/-- The run is over: the unit shows its registers, and agent `P`, who made the call, goes on. -/
def State.closeRun (s : State) (r : Run) : State :=
  { s with cpu := { regs := r.regs, run := none }, env.issuer := .p }

/-- The call returns: the count is checked (rules R128, R129), then the caller's remaining steps are done. -/
def State.finishRun (s : State) : State :=
  match s.cpu.run with
  | none => s
  | some r =>
    match countFault r.asked r.count with
    | some f => (s.closeRun r).raise f
    | none =>
      match r.user with
      | .line en => (s.closeRun r).lineStore en r.count
      | .chunk rem => (s.closeRun r).chunkStore rem r.asked

/-- The whole call, as one step (rule R68): open it, let the unit issue its commands, return. -/
def State.cpuRun (s : State) (asked : Nat) (user : RunUser) : State :=
  (State.runOps s.drawRun.1.ops (s.openRun asked user)).finishRun

end Sys2Proof.Machine
end

