-- ==== Sys2Proof/Machine/Render.lean ====
section
/-!
DEFINITION. The renderer's arithmetic, exact integers divided once with truncation toward zero (rules R12, R184 to
R193 of spec/43_beeper_audio_pipeline.md). The open parameters stand as arguments.
-/
namespace Sys2Proof.Machine

/-- `k`, the source line below output sample `i` (rules R185, R186). -/
def lineBelow (i : Nat) : Nat := 39 * i / 40

/-- `r`, the position within the line, in 40ths (rules R185, R186). -/
def lineFraction (i : Nat) : Nat := 39 * i % 40

/-- `k1`, the next line, clamped at the last (rules R185, R186). -/
def lineAbove (i : Nat) : Nat := min (lineBelow i + 1) 311

/-- `Nn`, 40 times the interpolated count less 112 (rules R185, R187). -/
def centred (F : LineFrame) (i : Nat) : Int :=
  40 * F.entry (lineBelow i) + lineFraction i * ((F.entry (lineAbove i) : Int) - F.entry (lineBelow i)) - 4480

/-- `g`, the fade gain numerator (rules R185, R189). -/
def fadeGain (fade i : Nat) : Nat :=
  if i < fade then i else if 320 - fade ≤ i then 319 - i else fade

/-- `steady(i, F, L)` (rule R185). -/
def steadySample (peak fade level : Nat) (F : LineFrame) (i : Nat) : Int :=
  Int.tdiv ((peak : Int) * level * centred F i * fadeGain fade i) (10 * 4480 * fade)

/-- `tape0(i, F, Lt)` (rule R193). -/
def tapeUnsmoothed (peak lt : Nat) (F : LineFrame) (i : Nat) : Int :=
  Int.tdiv ((peak : Int) * lt * centred F i) (10 * 4480)

/-- `prev(i)`, with carry `q` (rule R193). -/
def tapePrevious (peak lt : Nat) (F : LineFrame) (q : Int) (i : Nat) : Int :=
  if i = 0 then q else tapeUnsmoothed peak lt F (i - 1)

/-- `tapeout(i, F, Lt, q)` (rule R193). At level 0 with a carry that is not 0 the first sample is half the carry, as this
formula has it, although rule R192 calls levels 0 to 2 silence and a row of spec/95_test_vectors.md gives zeros for any carry
(DEDUCED, notes/assumptions/39.md). -/
def tapeSample (peak lt : Nat) (F : LineFrame) (q : Int) (i : Nat) : Int :=
  Int.tdiv (tapeUnsmoothed peak lt F i + tapePrevious peak lt F q i) 2

/-- `Lt`, the level of a tape frame (rule R192); level and offset are naturals, so the difference stops at 0. -/
def tapeLevel (vol : Nat) : Nat := vol - Config.tapeVolOffset

/-- 320 samples of value 0 (rule R191). -/
def silence : PcmFrame := tabulate 320 fun _ => 0

/-- A steady-state frame rendered (rule R185). -/
def renderSteady (peak fade level : Nat) (F : LineFrame) : PcmFrame := tabulate 320 (steadySample peak fade level F)

/-- A tape frame rendered (rule R193). -/
def renderTape (peak lt : Nat) (F : LineFrame) (q : Int) : PcmFrame := tabulate 320 (tapeSample peak lt F q)

end Sys2Proof.Machine
end

