-- ==== Sys2Proof/Machine/AudioPipeline.lean ====
section
/-!
DEFINITION. The meanings of the beeper audio pipeline operations (spec/43_beeper_audio_pipeline.md).
-/
namespace Sys2Proof.Machine

/-- `SETVOL level` (rule R181). -/
def execSetvol (level : BitVec 4) (s : State) : Host.Outcome State Fault Refusal :=
  .next (s.attempt (.setvol level) (s.setvolWhy level) { s with aud.vol := level.toNat })

/-- `POST` (rule R182). -/
def execPost (s : State) : Host.Outcome State Fault Refusal :=
  .next (s.attempt .post s.postWhy (s.postFrame s.frm.acc .beeper))

/-- The critical section of `TAKE` (rules R69, R183). -/
def State.takeFrame (s : State) : State :=
  if s.mbx.ready then
    { s with aud.cur := s.mbx.mb, aud.curSrc := s.mbx.src, aud.curValid := true, mbx.ready := false }
  else { s with aud.curValid := false }

/-- `TAKE` (rule R183). -/
def execTake (s : State) : Host.Outcome State Fault Refusal :=
  .next (s.attempt .take (s.audioWhy .take) { s.takeFrame with aud.aph := .render })

/-- The frame `RENDER` writes (rules R184, R191, R192). -/
def State.renderedFrame (s : State) : PcmFrame :=
  if s.aud.curValid then
    match s.aud.curSrc with
    | .beeper => renderSteady Config.peak Config.fade s.aud.vol s.aud.cur
    | .tape => renderTape Config.peak (tapeLevel s.aud.vol) s.aud.cur s.aud.sprev
  else silence

/-- The carry `RENDER` leaves in `SPREV` (rules R39, R184). -/
def State.renderedCarry (s : State) : Int :=
  if s.aud.curValid then
    match s.aud.curSrc with
    | .beeper => 0
    | .tape => tapeUnsmoothed Config.peak (tapeLevel s.aud.vol) s.aud.cur 319
  else 0

/-- `RENDER` (rule R184). -/
def execRender (s : State) : Host.Outcome State Fault Refusal :=
  .next (s.attempt .render (s.audioWhy .render)
    { s with
      aud.pcm := s.aud.pcm.set s.aud.ab s.renderedFrame
      aud.sprev := s.renderedCarry
      aud.aph := .submit })

/-- The active buffer, `PCM[AB]` (rule R38). -/
def State.activeBuffer (s : State) : PcmFrame := s.aud.pcm[s.aud.ab]

/-- `SUBMIT` (rule R194). -/
def execSubmit (s : State) : Host.Outcome State Fault Refusal :=
  .next (s.attempt .submit (s.audioWhy .submit)
    { s with
      snk.sq := s.snk.sq ++ [s.activeBuffer]
      snk.out := s.snk.out ++ [s.activeBuffer]
      aud.aph := .wait })

/-- `WAIT` is held: it stays the next operation of the audio context (rule R195). One that `A` issued on its own is kept on
the work list too, and so is dropped by `PRESET`, with no refusal (DESIGN CHOICE, notes/assumptions/35.md). -/
def State.holdWait (s : State) : State := { s with env.aWork := .op .wait :: s.env.aWork }

/-- `WAIT` (rule R195). Held with nobody left to lift the hold, the run is stuck (rule R220 c). -/
def execWait (s : State) : Host.Outcome State Fault Refusal :=
  match s.audioWhy .wait with
  | some w => .next (s.refuse (encode .wait) w)
  | none =>
    if s.snk.sq.length ≤ 1 then .next { s with aud.aph := .flip }
    else if s.othersPending then .next s.holdWait
    else .fault .stuck

/-- `FLIP` (rule R197). -/
def execFlip (s : State) : Host.Outcome State Fault Refusal :=
  .next (s.attempt .flip (s.audioWhy .flip) { s with aud.ab := 1 - s.aud.ab, aud.aph := .take })

/-- The parts of `APERIOD` (rules R104, R198). -/
def periodParts : List Task := [.op .take, .op .render, .op .submit, .op .wait, .op .flip]

/-- `APERIOD` (rule R198); refused as a whole if its `TAKE` would be (rule R104). -/
def execAperiod (s : State) : Host.Outcome State Fault Refusal :=
  .next (s.attempt .aperiod (s.audioWhy .take) { s with env.aWork := periodParts ++ s.env.aWork })

/-- `Sink.isPlaying()`: the sink holds at least one frame (rules R196, R244). No operation asks. -/
def State.sinkIsPlaying (s : State) : Bool := !s.snk.sq.isEmpty

/-- `SINKDONE` (rule R196). -/
def execSinkdone (s : State) : Host.Outcome State Fault Refusal :=
  .next (s.attempt .sinkdone s.sinkdoneWhy { s with snk.sq := s.snk.sq.tail })

end Sys2Proof.Machine
end

