-- ==== Sys2Proof/Machine/FrameAccumulator.lean ====
section
/-!
DEFINITION. The meanings of the frame accumulator operations (spec/41_frame_accumulator.md).
-/
namespace Sys2Proof.Machine

/-- A composite of the primary context begins: its parts stand before whatever that context was in the middle of
(rule R104). -/
def State.pushP (s : State) (ts : List Task) : State := { s with env.pWork := ts ++ s.env.pWork }

/-- The diagnostic register copy of scanline `LINE_DIAG` (rule R131). -/
def State.diagCopy (s : State) : State :=
  if s.frm.line = Config.lineDiag then { s with frm.diag := s.cpu.regs, frm.diagValid := true } else s

/-- Steps 1 and 2 of `LINE` (rules R126, R127). -/
def State.lineStart (s : State) : State := { s.diagCopy with frm.dur := 0, frm.seen := s.lat.beep }

/-- `LINE en` (rule R126). -/
def execLine (en : Bool) (s : State) : Host.Outcome State Fault Refusal :=
  .next (s.attempt (.line en) s.lineWhy (s.lineStart.cpuRun Config.tLine (.line en)))

/-- `EOF` (rule R132). -/
def execEof (s : State) : Host.Outcome State Fault Refusal :=
  .next (s.attempt .eof s.eofWhy { s.frameInterrupt with frm.line := 0, frm.fcyc := 0 })

/-- The parts of `FRAME en` (rules R104, R133). -/
def frameParts (en : Bool) : List Task := List.replicate Config.nLines (.op (.line en)) ++ [.op .eof]

/-- `FRAME en` (rule R133). -/
def execFrame (en : Bool) (s : State) : Host.Outcome State Fault Refusal :=
  .next (s.attempt (.frame en) s.frameWhy (s.pushP (frameParts en)))

/-- `STEADY` (rule R134). -/
def execSteady (s : State) : Host.Outcome State Fault Refusal :=
  .next (s.attempt .steady s.frameWhy (s.pushP [.op (.frame true), .op .post]))

end Sys2Proof.Machine
end

