-- ==== Sys2Proof/Machine/PortInterface.lean ====
section
/-!
DEFINITION. The meanings of the port interface operations (spec/40_port_interface.md).
-/
namespace Sys2Proof.Machine

/-- `PORTW port, data` (rule R115). -/
def execPortw (port : BitVec 16) (data : Byte) (s : State) : Host.Outcome State Fault Refusal :=
  .next (s.doPortw port data)

/-- `PORTR port` (rule R116). -/
def execPortr (port : BitVec 16) (s : State) : Host.Outcome State Fault Refusal :=
  .next (s.doPortr port)

end Sys2Proof.Machine
end

