-- ==== Sys2Proof/Machine/SystemOps.lean ====
section
/-!
DEFINITION. The meanings of the system operations (spec/44_system_ops.md).
-/
namespace Sys2Proof.Machine

/-- `PRESET` (rule R215), accepted in every state. -/
def execPreset (s : State) : Host.Outcome State Fault Refusal :=
  .next (s.attempt .preset (s.barredIssuer [.h]) s.powerOn)

/-- `MRESET` (rule R216). -/
def execMreset (s : State) : Host.Outcome State Fault Refusal :=
  .next (s.attempt .mreset s.mresetWhy s.machineReset)

/-- The code `LASTERR` returns (rule R217). -/
def State.lastError (s : State) : ErrCode := if s.err.fault then s.err.fcode else s.err.terr

/-- The text of that code, the parameter `ERR_TEXT` applied to it (rules R8, R217). -/
def State.lastErrorText (s : State) : String := Config.errText s.lastError

/-- `LASTERR` (rule R217), accepted in every state. -/
def execLasterr (s : State) : Host.Outcome State Fault Refusal :=
  .next (s.attempt .lasterr (s.barredIssuer [.h]) (s.giveBack (.code s.lastError)))

end Sys2Proof.Machine
end

