-- ==== Sys2Proof/Machine/TapeGenerator.lean ====
section
/-!
DEFINITION. The meanings of the tape-pulse generator operations, and the parts of its composites
(spec/42_tape_pulse_generator.md).
-/
namespace Sys2Proof.Machine

/-! ### Parsing -/

/-- A failed load: `TBLK` emptied, the reason kept (rules R146, R229). -/
def State.loadFailed (s : State) (e : ErrCode) : State := { s with tap.tblk := [], err.terr := e }

/-- The body of `TLOAD <img>`: the boolean it returns and the state it leaves (rules R146, R230, R239). -/
def State.loadTape (s : State) (img : List Byte) : Bool × State :=
  if s.drawAlloc.1 then
    let s1 := { s.drawAlloc.2 with tap.timg := img }
    match parseTape img with
    | .ok blocks => (true, { s1 with tap.tblk := blocks, err.terr := .none })
    | .error e => (false, s1.loadFailed e)
  else (false, s.drawAlloc.2.loadFailed .noMem)

/-- The effect of `TLOAD <img>`: the load, and its boolean returned, from a `TLOAD` inside a `TPLAY` too (rules R146,
R221; DEDUCED, notes/assumptions/36.md). -/
def State.returnLoad (s : State) (img : List Byte) : State := (s.loadTape img).2.giveBack (.bool (s.loadTape img).1)

/-- `TLOAD <img>` (rule R146). -/
def execTload (img : List Byte) (s : State) : Host.Outcome State Fault Refusal :=
  .next (s.attempt (.tload img) s.tloadWhy (s.returnLoad img))

/-! ### Pulses -/

/-- The toggle of a pulse of `w` cycles, which are still to be run (rule R150). -/
def State.startPulse (s : State) (w : Nat) : State := { s with lat.ear := !s.lat.ear }.pushP [.chunk w]

/-- `PULSE w`, refusals included (rule R150). -/
def State.doPulse (s : State) (w : BitVec 16) : State :=
  s.attempt (.pulse w) (s.pulseWhy w.toNat) (s.startPulse w.toNat)

/-- `PULSE w` (rule R150). -/
def execPulse (w : BitVec 16) (s : State) : Host.Outcome State Fault Refusal := .next (s.doPulse w)

/-- The length of the next chunk, `min(rem, 224 - TPHASE)` (rule R150). -/
def State.chunkLength (s : State) (rem : Nat) : Nat := min rem (Config.tLine - s.tap.tphase)

/-- One chunk of a pulse with `rem` cycles to go (rule R150). -/
def State.doChunk (s : State) (rem : Nat) : State :=
  if rem = 0 then s else s.cpuRun (s.chunkLength rem) (.chunk rem)

/-! ### Blocks -/

/-- The payload of the block being played (rules R43, R44). -/
def State.blockPayload (s : State) : List Byte := payload s.tap.timg (s.tap.tblk[s.tap.tbi]?.getD (0, 0))

/-- The pulse program of block `i` begins (rule R153). -/
def State.startBlock (s : State) (i : Nat) : State := { s with tap.tbi := i }.pushP [.blockPulse 0]

/-- One turn of the loop of `TBLOCK`: pulse `k` of the block, or, after the last, the guaranteed `Refresh()` (rules
R153, R154). -/
def State.doBlockPulse (s : State) (k : Nat) : State :=
  if k < pulseCount s.blockPayload then
    ({ s with tap.tpi := k }.pushP [.blockPulse (k + 1)]).doPulse (BitVec.ofNat 16 (pulseAt s.blockPayload k))
  else s.refresh

/-- `TBLOCK i` (rule R153). -/
def execTblock (i : BitVec 16) (s : State) : Host.Outcome State Fault Refusal :=
  .next (s.attempt (.tblock i) (s.tblockWhy i.toNat) (s.startBlock i.toNat))

/-- `TPAUSE` (rule R155). -/
def execTpause (s : State) : Host.Outcome State Fault Refusal :=
  .next (s.attempt .tpause s.tpauseWhy { s with lat.ear := false })

/-! ### Boot and the whole load -/

/-- The parts of `TBOOT`: the warm-up frames, then each chord of the script held for its frames (rules R156, R157). -/
def bootParts : List Task :=
  List.replicate Config.warmupFrames (.op (.frame false)) ++
    Config.keyScript.flatMap fun k =>
      [.keyPress k] ++ List.replicate Config.keyHoldFrames (.op (.frame false)) ++ [.keyRelease k]

/-- `TBOOT` (rule R156). -/
def execTboot (s : State) : Host.Outcome State Fault Refusal :=
  .next (s.attempt .tboot s.frameWhy (s.pushP bootParts))

/-- `TPLAY <img>` begins: step 1, the machine reset, then the rest (rule R158). -/
def execTplay (img : List Byte) (s : State) : Host.Outcome State Fault Refusal :=
  .next (s.attempt (.tplay img) s.tplayWhy (s.pushP [.op .mreset, .playLoad img]))

/-- Steps 3 and 4 of `TPLAY`, and `TST <- T_BOOT` of step 5, with the boot and the blocks to follow (rules R158, R160). -/
def State.playLoaded (s : State) : State :=
  let s1 := { s with tap.tdone := 0, tap.tfr := 0, tap.tln := 0, tap.tphase := 0 }
  if s1.tap.tblk = [] then s1.giveBack (.bool true)
  else { s1 with tap.tst := .boot }.pushP [.op .tboot, .playBlock 0]

/-- Steps 2 to 5 of `TPLAY` (rules R158, R159): the `TLOAD`, which returns its boolean, then what follows from it; a
`false` is passed on as the boolean of `TPLAY` (rule R229). -/
def State.doPlayLoad (s : State) (img : List Byte) : State :=
  s.attempt (.tload img) s.tloadWhy
    (if (s.loadTape img).1 then (s.returnLoad img).playLoaded else (s.returnLoad img).giveBack (.bool false))

/-- Step 6 of `TPLAY` for block `i`, its pulses, or step 7 when there is no such block (rule R158). -/
def State.doPlayBlock (s : State) (i : Nat) : State :=
  if i < s.tap.tblk.length then
    let s1 := { s with tap.tst := .pulses }.pushP [.playPause i]
    s1.attempt (.tblock (BitVec.ofNat 16 i)) (s1.tblockWhy i) (s1.startBlock i)
  else { s with tap.tst := .idle }.giveBack (.bool true)

/-- The pause after block `i`, which is then done (rule R158). -/
def State.doPlayPause (s : State) (i : Nat) : State :=
  let s1 := { s with tap.tst := .pause }
  s1.attempt .tpause s1.tpauseWhy
    ({ s1 with lat.ear := false, tap.tdone := s1.tap.tdone + 1 }.pushP [.playBlock (i + 1)])

/-- A request to the host about a key chord (rules R156, R219). -/
def State.askKey (s : State) (x : KeyAction) : State := { s with log.keys := s.log.keys ++ [x] }

/-- A part of a composite that is not an operation of its own. -/
def State.doTask (s : State) : Task → State
  | .op _ => s
  | .chunk rem => s.doChunk rem
  | .blockPulse k => s.doBlockPulse k
  | .keyPress k => s.askKey (.press k)
  | .keyRelease k => s.askKey (.release k)
  | .playLoad img => s.doPlayLoad img
  | .playBlock i => s.doPlayBlock i
  | .playPause i => s.doPlayPause i

end Sys2Proof.Machine
end

