-- ==== Sys2Proof/Machine/Dispatch.lean ====
section
/-!
DEFINITION. One arm per operation, each a direct call of its meaning.
-/
namespace Sys2Proof.Machine

/-- The outcome of operation `i`, issued by `s.env.issuer` in state `s`. -/
def exec (i : Instr) (s : State) : Host.Outcome State Fault Refusal :=
  match i with
  | .portw port data => Sys2Proof.Machine.execPortw port data s
  | .portr port => Sys2Proof.Machine.execPortr port s
  | .line en => Sys2Proof.Machine.execLine en s
  | .eof => Sys2Proof.Machine.execEof s
  | .frame en => Sys2Proof.Machine.execFrame en s
  | .steady => Sys2Proof.Machine.execSteady s
  | .tload img => Sys2Proof.Machine.execTload img s
  | .tboot => Sys2Proof.Machine.execTboot s
  | .pulse w => Sys2Proof.Machine.execPulse w s
  | .tblock k => Sys2Proof.Machine.execTblock k s
  | .tpause => Sys2Proof.Machine.execTpause s
  | .tplay img => Sys2Proof.Machine.execTplay img s
  | .setvol level => Sys2Proof.Machine.execSetvol level s
  | .post => Sys2Proof.Machine.execPost s
  | .take => Sys2Proof.Machine.execTake s
  | .render => Sys2Proof.Machine.execRender s
  | .submit => Sys2Proof.Machine.execSubmit s
  | .wait => Sys2Proof.Machine.execWait s
  | .flip => Sys2Proof.Machine.execFlip s
  | .aperiod => Sys2Proof.Machine.execAperiod s
  | .sinkdone => Sys2Proof.Machine.execSinkdone s
  | .preset => Sys2Proof.Machine.execPreset s
  | .mreset => Sys2Proof.Machine.execMreset s
  | .lasterr => Sys2Proof.Machine.execLasterr s

end Sys2Proof.Machine
end

