-- ==== Sys2Proof/Machine/Fetch.lean ====
section
/-!
DEFINITION. What comes next: whose turn it is, and what that agent does with it (rules R13, R68, R104, R220 of spec/).
-/
namespace Sys2Proof.Machine

/-- What a turn does. -/
inductive Turn where
  /-- nothing: the agent has nothing to issue -/
  | idle
  /-- the operation `i` is executed -/
  | op (i : Instr)
  /-- a command that names no operation is refused -/
  | reject (c : Cmd) (r : Reject)
  /-- a part of a composite that is no operation of its own -/
  | task (t : Task)
  /-- the `Cpu.run` call in progress returns -/
  | runReturns
  deriving DecidableEq, Repr

/-- The turn that issues command `c`. -/
def turnOfCmd (c : Cmd) : Turn :=
  match decode c with
  | .ok i => .op i
  | .error r => .reject c r

/-- The turn that carries on with a composite. -/
def turnOfTask : Task → Turn
  | .op i => .op i
  | .chunk rem => .task (.chunk rem)
  | .blockPulse k => .task (.blockPulse k)
  | .keyPress k => .task (.keyPress k)
  | .keyRelease k => .task (.keyRelease k)
  | .playLoad img => .task (.playLoad img)
  | .playBlock i => .task (.playBlock i)
  | .playPause i => .task (.playPause i)

/-- The agent's commands. -/
def Pending.of (p : Pending) : Agent → List Cmd
  | .p => p.p
  | .c => p.c
  | .a => p.a
  | .s => p.s
  | .h => p.h

/-- The commands, with those of one agent replaced. -/
def Pending.put (p : Pending) (g : Agent) (cs : List Cmd) : Pending :=
  match g with
  | .p => { p with p := cs }
  | .c => { p with c := cs }
  | .a => { p with a := cs }
  | .s => { p with s := cs }
  | .h => { p with h := cs }

/-- The composite an agent is in the middle of; only `P` and `A` have composites (rule R86). -/
def State.workOf (s : State) : Agent → List Task
  | .p => s.env.pWork
  | .c => []
  | .a => s.env.aWork
  | .s => []
  | .h => []

/-- The composites, with that of one agent replaced. -/
def State.putWork (s : State) (g : Agent) (ts : List Task) : State :=
  match g with
  | .p => { s with env.pWork := ts }
  | .c => s
  | .a => { s with env.aWork := ts }
  | .s => s
  | .h => s

/-- The turn of agent `g`, who becomes the issuer: the rest of its composite first, then its next command. -/
def State.turnOf (s : State) (g : Agent) : Turn × State :=
  let s1 := { s with env.issuer := g }
  match s.workOf g with
  | t :: ts => (turnOfTask t, s1.putWork g ts)
  | [] =>
    match s.env.cmds.of g with
    | c :: cs => (turnOfCmd c, { s1 with env.cmds := s.env.cmds.put g cs })
    | [] => (.idle, s1)

/-- The turn inside a `Cpu.run` call: the CPU unit's next command, or the return. Nobody else moves meanwhile (rule
R68). -/
def State.turnInRun (s : State) (r : Run) : Turn × State :=
  match r.ops with
  | c :: _ => (turnOfCmd c, { s.popRunOp with env.issuer := .c })
  | [] => (.runReturns, s)

/-- The turn if agent `g` moves, and the state in which it is taken: the schedule as a parameter (rules R54, R68). -/
def State.fetchAs (g : Agent) (s : State) : Turn × State :=
  match s.cpu.run with
  | some r => s.turnInRun r
  | none => s.turnOf g

/-- Whether an agent has anything left to issue (rule R220). -/
def State.hasMove (s : State) (g : Agent) : Bool := !((s.workOf g).isEmpty && (s.env.cmds.of g).isEmpty)

/-- The agents that have anything left to issue. -/
def State.movers (s : State) : List Agent := [Agent.p, .c, .a, .s, .h].filter s.hasMove

/-- The schedule's draw: inside a run the CPU unit moves; an agent that alone has anything to issue moves; otherwise the
agent is a free value (rules R54, R68, U14; DESIGN CHOICE, notes/assumptions/6.md). -/
def State.drawAgent (s : State) : Agent × State :=
  match s.cpu.run, s.movers with
  | some _, _ => (.c, s)
  | none, [g] => (g, s)
  | none, _ => (Config.freeAgent s.env.draws, { s with env.draws := s.env.draws + 1 })

/-- The next turn, of the agent drawn, and the state in which it is taken. -/
def State.fetch (s : State) : Turn × State := s.drawAgent.2.fetchAs s.drawAgent.1

/-- A turn that executes no operation. -/
def State.plainTurn (s : State) : Turn → State
  | .idle => s
  | .op _ => s
  | .reject c r => s.refuse c (.undecodable r)
  | .task t => s.doTask t
  | .runReturns => s.finishRun

/-- The agent that issues command `c` in `State.withFetchWord`: the first that rule R86 lists for it. -/
def issuerOf (c : Cmd) : Agent :=
  match decode c with
  | .ok i => i.agents.headD .p
  | .error _ => .p

/-- The commands with those of one agent alone. -/
def Pending.only (g : Agent) (cs : List Cmd) : Pending := { p := [], c := [], a := [], s := [], h := [] : Pending }.put g cs

/-- A state whose next turn issues `c`. For agent `C` a `Cpu.run` call is in progress, one of a `LINE 0` that will keep
its contract; for any other agent none is, no composite is under way, and no other agent has anything to issue, so that the
draw can only name it (notes/assumptions/1.md, 8.md). -/
def State.withCommand (s : State) (c : Cmd) : State :=
  match issuerOf c with
  | .c => { s with
      cpu.run := some { asked := Config.tLine, user := .line false, ops := [c], count := Config.tLine, regs := s.cpu.regs } }
  | g =>
    { s with cpu.run := none, env.cmds := Pending.only g (c :: s.env.cmds.of g), env.pWork := [], env.aWork := [] }

end Sys2Proof.Machine
end

