-- ==== Sys2Proof/Machine/Step.lean ====
section
/-!
DEFINITION. One step: one turn of one agent (rules R68, R220 of spec/).
-/
namespace Sys2Proof.Machine

/-- One turn taken: an operation is executed, any other turn is `State.plainTurn`. -/
def takeTurn (x : Turn × State) : Host.Outcome State Fault Refusal :=
  match x.1 with
  | .op i => exec i x.2
  | t => .next (x.2.plainTurn t)

/-- The step in which agent `g` moves: the step relation, with the schedule as its parameter (rule R54). -/
def stepAs (g : Agent) (s : State) : Host.Outcome State Fault Refusal := takeTurn (s.fetchAs g)

/-- One step of the machine: the agent is drawn, and moves. -/
def step (s : State) : Host.Outcome State Fault Refusal := stepAs s.drawAgent.1 s.drawAgent.2

/-- `s` with the command of word `w` placed where the next step issues it. -/
def State.withFetchWord (s : State) (nbits w : Nat) : State :=
  s.withCommand ⟨BitVec.ofNat 32 (w % 2 ^ nbits), []⟩

end Sys2Proof.Machine
end

