-- ==== Sys2Proof/Safety.lean ====
section
/-!
DEFINITION. What counts as a good state and as a good end of a run, in the terms statements use: the invariants of rule
R53, what a refused command leaves, and the kinds of state of a run (rule R220 of spec/44_system_ops.md).
-/
namespace Sys2Proof.Machine

/-- Every entry is 0 or 224 (rules R53 b, R127, R151). -/
def AllOrNothing (F : LineFrame) : Prop := ∀ k, k < 312 → F.entry k = 0 ∨ F.entry k = 224

/-- Every sample has magnitude at most `m` (rules R53 d, R190). -/
def Within (m : Nat) (f : PcmFrame) : Prop := ∀ i (h : i < 320), f[i].natAbs ≤ m

/-- The invariants of rule R53, with two the model adds: between two steps no `Cpu.run` call is half done (rule R68),
and the renderer's carry is a sample's size (rules R39, R193). -/
structure State.Inv (s : State) : Prop where
  line_le : s.frm.line ≤ 312
  tln_le : s.tap.tln ≤ 311
  tphase_le : s.tap.tphase ≤ 223
  acc_allOrNothing : AllOrNothing s.frm.acc
  mb_allOrNothing : AllOrNothing s.mbx.mb
  cur_allOrNothing : AllOrNothing s.aud.cur
  tacc_allOrNothing : AllOrNothing s.tap.tacc
  vol_le : s.aud.vol ≤ 10
  pcm_within : ∀ b : Fin 2, Within Config.peak s.aud.pcm[b]
  sq_le : s.snk.sq.length ≤ 2
  sq_le_one : s.aud.aph ≠ .wait → s.snk.sq.length ≤ 1
  fcyc_eq : s.err.fault = false → s.frm.fcyc = 224 * s.frm.line
  carry_le : s.aud.sprev.natAbs ≤ Config.peak
  no_run : s.cpu.run = none

/-- The block itself is the same in both states; records, commands and answers may differ. -/
def State.SameBlock (s t : State) : Prop :=
  t.lat = s.lat ∧ t.frm = s.frm ∧ t.err = s.err ∧ t.mbx = s.mbx ∧ t.aud = s.aud ∧ t.tap = s.tap ∧ t.snk = s.snk ∧
    t.cpu = s.cpu

/-- `t` is `s` after the command `c` was refused: nothing of the block changed, and the report, to the issuer, is the
only new record (rules R14 d, R231). -/
def State.RefusedTo (s t : State) (c : Cmd) (why : Why) : Prop :=
  s.SameBlock t ∧ t.log = { s.log with refused := s.log.refused ++ [{ agent := s.env.issuer, cmd := c, why := why }] }

/-- The operation is not refused for its issuer or for `FAULT` (rule R88). -/
def State.MayIssue (s : State) (g : Agent) : Prop := s.env.issuer = g ∧ s.err.fault = false

/-- A port command that leaves `BEEP` = 1: a `PORTW` to an even port with bit 4 set (rule R115). -/
def raisesBeeper (c : Cmd) : Prop :=
  ∃ port data, decode c = .ok (.portw port data) ∧ port.getLsbD 0 = false ∧ data.getLsbD 4 = true

/-- The latches after a command of the CPU unit inside a run: a `PORTW` to an even port sets border and beeper, any other
command leaves them (rules R115, R116, R118). -/
def Latches.afterCmd (l : Latches) (c : Cmd) : Latches :=
  match decode c with
  | .ok (.portw port data) =>
    if port.getLsbD 0 then l else { l with border := data.extractLsb' 0 3, beep := data.getLsbD 4 }
  | .ok _ => l
  | .error _ => l

/-- The latches as the commands of a run leave them, in order. -/
def Latches.afterCmds (l : Latches) (cs : List Cmd) : Latches := cs.foldl Latches.afterCmd l

/-- The ports the commands of a run read, in order. -/
def portReads (cs : List Cmd) : List (BitVec 16) :=
  cs.filterMap fun c =>
    match decode c with
    | .ok (.portr port) => some port
    | .ok _ => none
    | .error _ => none

/-- Why a command the CPU unit issues inside a run is refused, if it is: it is no port operation (rules R88, R117). -/
def refusedInRun (c : Cmd) : Option Why :=
  match decode c with
  | .ok (.portw _ _) => none
  | .ok (.portr _) => none
  | .ok _ => some .wrongAgent
  | .error e => some (.undecodable e)

/-- What the commands `cs` of a run begun in `s` have added to the records of `t`: for every read in order the byte that
went back to the CPU unit, with `EAR` in bit 6 of an even port's and the one open value of an odd port's (rules R116, R118,
R162), and for every command that is no port operation, in order, the report of its refusal (rules R88, R117). -/
def State.RunRecords (s t : State) (cs : List Cmd) : Prop :=
  (∃ bs : List Byte, bs.length = (portReads cs).length ∧
    (∀ x ∈ (portReads cs).zip bs, if x.1.getLsbD 0 then x.2 = Config.floatBus else x.2.getLsbD 6 = s.lat.ear) ∧
    t.log.returns = s.log.returns ++ bs.map fun b => (.c, .byte b)) ∧
  t.log.refused = s.log.refused ++
    cs.filterMap fun c => (refusedInRun c).map fun w => { agent := .c, cmd := c, why := w }

/-- A record of a tape image with payload `d`: its length, the less significant byte first, then the payload (rules R92,
R93). -/
def recordBytes (d : List Byte) : List Byte := [BitVec.ofNat 8 d.length, BitVec.ofNat 8 (d.length / 256)] ++ d

/-- A payload a record can carry: its length has 16 bits, and its first byte is one of the two flag bytes (rule R92). -/
def IsPayload (d : List Byte) : Prop := d.length ≤ 65535 ∧ (d.head? = some 0x00#8 ∨ d.head? = some 0xFF#8)

/-- Neither `T_PULSES` nor `T_PAUSE`: no tape pulses are being played (rules R126, R133). -/
def State.NotPlaying (s : State) : Prop := s.tap.tst ≠ .pulses ∧ s.tap.tst ≠ .pause

/-- The sequencer position or the operand for which an operation's own rule refuses it (rules R88, R117, R126, R132 to
R134, R146, R150, R153, R156, R158, R181 to R184, R194 to R198, R216). -/
def State.OutOfPlace (s : State) : Instr → Prop
  | .portw _ _ => s.cpu.run = none
  | .portr _ => s.cpu.run = none
  | .line _ => s.frm.line = 312 ∨ ¬ s.NotPlaying
  | .eof => s.frm.line ≠ 312
  | .frame _ => s.frm.line ≠ 0 ∨ ¬ s.NotPlaying
  | .steady => s.frm.line ≠ 0 ∨ ¬ s.NotPlaying
  | .tload _ => s.tap.tst ≠ .idle
  | .tboot => s.frm.line ≠ 0 ∨ ¬ s.NotPlaying
  | .pulse w => w = 0#16 ∨ s.frm.line ≠ 0
  | .tblock i => s.tap.tblk.length ≤ i.toNat ∨ s.frm.line ≠ 0
  | .tpause => False
  | .tplay _ => s.tap.tst ≠ .idle ∨ s.frm.line ≠ 0
  | .setvol level => 10 < level.toNat
  | .post => s.frm.line ≠ 0
  | .take => s.aud.aph ≠ .take
  | .render => s.aud.aph ≠ .render
  | .submit => s.aud.aph ≠ .submit
  | .wait => s.aud.aph ≠ .wait
  | .flip => s.aud.aph ≠ .flip
  | .aperiod => s.aud.aph ≠ .take
  | .sinkdone => s.snk.sq = []
  | .preset => False
  | .mreset => s.tap.tst ≠ .idle
  | .lasterr => False

/-- The cycle counts asked of the CPU unit, in order, among the calls recorded. -/
def runCycles (calls : List CpuCall) : List Nat :=
  calls.filterMap fun
    | .run n => some n
    | .reset => none
    | .interrupt _ => none

/-- The chunks of a pulse of `w` cycles that starts `phase` cycles into a tape line (rule R150): up to the line's end,
whole lines, and the rest. -/
def pulseRuns (phase w : Nat) : List Nat :=
  if w ≤ 224 - phase then [w]
  else
    (224 - phase) :: (List.replicate ((w - (224 - phase)) / 224) 224 ++
      if (w - (224 - phase)) % 224 = 0 then [] else [(w - (224 - phase)) % 224])

/-- `n` steps of the machine. -/
def run (n : Nat) (s : State) : Host.Outcome State Fault Refusal := Host.Core.run Sys2Proof.core n s

/-- Turns of the agents `gs`, in order: a run under a schedule that is a parameter (rules R54, R68). -/
def runAs : List Agent → State → Host.Outcome State Fault Refusal
  | [], s => .next s
  | g :: gs, s =>
    match stepAs g s with
    | .next t => runAs gs t
    | .fault f => .fault f
    | .refused r => .refused r

/-- In every turn of `runAs gs s` the agent that moves is the only one with anything to issue. -/
def MovesAlone : List Agent → State → Prop
  | [], _ => True
  | g :: gs, s => s.cpu.run = none ∧ s.movers = [g] ∧ ∀ t, stepAs g s = .next t → MovesAlone gs t

/-! ### The kinds of state of a run (rule R220) -/

/-- No agent has anything left to issue. -/
def State.Exhausted (s : State) : Prop := s.othersPending = false ∧ s.env.cmds.a = [] ∧ s.env.aWork = []

/-- (a) final -/
def State.Final (s : State) : Prop :=
  s.Exhausted ∧ s.err.fault = false ∧ s.log.refused = [] ∧ s.tap.tst = .idle

/-- (b) faulted -/
def State.Faulted (s : State) : Prop := s.err.fault = true

/-- (c) stuck: the audio context is held at a `WAIT` and nobody else has anything left to issue -/
def State.Stuck (s : State) : Prop :=
  s.othersPending = false ∧ s.err.fault = false ∧ s.aud.aph = .wait ∧ 2 ≤ s.snk.sq.length ∧
    (s.env.aWork.head? = some (.op .wait) ∨ s.env.aWork = [] ∧ s.env.cmds.a.head?.map decode = some (.ok .wait))

/-- (d) refused -/
def State.Refused (s : State) : Prop := s.log.refused ≠ []

end Sys2Proof.Machine
end

