-- ==== Sys2Proof/Certificates/Slice0/Obligations.lean ====
section
/-!
DEFINITION. The statements for the provers. Each docstring names the rule of spec/ it follows. Where the spec marks that
rule as its own decision (D<n> of spec/92_eei_decisions.md) the docstring says so.
-/
open Sys2Proof Sys2Proof.Machine

/-! ### Commands and their encoding (spec/30_encoding.md) -/

/-- Decoding the command of an operation gives the operation back, every operand at every value (R85 to R87; the word is
the spec's decision D1). -/
def Obligations.DecodeInvertsEncode : Prop :=
  ∀ i : Instr, decode (encode i) = .ok i

/-- A command that decodes is the command of the operation it decodes to, so no bit of its word is ignored (R88, decision
D1) and no image beside an operation that takes none: that such a command is rejected is the model's choice
(notes/assumptions/27.md), for R88 speaks of the bits of the word. -/
def Obligations.EncodeInvertsDecode : Prop :=
  ∀ (c : Cmd) (i : Instr), decode c = .ok i → encode i = c

/-- Words written out in section 2.1 of spec/95_test_vectors.md decode to what stands beside them there. -/
def Obligations.DecodesWordsOfTheSpec : Prop :=
  decode ⟨0x0100FE10#32, []⟩ = .ok (.portw 0x00FE#16 0x10#8) ∧
  decode ⟨0x027FFE00#32, []⟩ = .ok (.portr 0x7FFE#16) ∧
  decode ⟨0x10000001#32, []⟩ = .ok (.line true) ∧
  decode ⟨0x2206AE00#32, []⟩ = .ok (.pulse 1710#16) ∧
  decode ⟨0x23000100#32, []⟩ = .ok (.tblock 1#16) ∧
  decode ⟨0x30000007#32, []⟩ = .ok (.setvol 7#4) ∧
  decode ⟨0x38000000#32, []⟩ = .ok .sinkdone ∧
  decode ⟨0xF2000000#32, []⟩ = .ok .lasterr ∧
  decode ⟨0x10000002#32, []⟩ = .error .unusedBits ∧
  decode ⟨0x02FFFE01#32, []⟩ = .error .unusedBits ∧
  decode ⟨0x39000000#32, []⟩ = .error .reservedOp

/-- Exactly the operation codes outside the map of R86 are rejected as reserved (R88, decision D1). -/
def Obligations.ReservedCodesAreTheOnesNotInTheMap : Prop :=
  ∀ c : Cmd, decode c = .error .reservedOp ↔
    c.word.extractLsb' 24 8 ∉ [0x01#8, 0x02#8, 0x10#8, 0x11#8, 0x12#8, 0x13#8, 0x20#8, 0x21#8, 0x22#8, 0x23#8, 0x24#8,
      0x25#8, 0x30#8, 0x31#8, 0x32#8, 0x33#8, 0x34#8, 0x35#8, 0x36#8, 0x37#8, 0x38#8, 0xF0#8, 0xF1#8, 0xF2#8]

/-! ### What a step does (spec/20_memory.md section 3, spec/44_system_ops.md section 2) -/

/-- The agent that moves issues its next command: the step is `exec` of the decoded operation, with the command used up and
that agent as the issuer. Which agent moves is the parameter of `stepAs` (R54, R68, decision D15); `step` draws it, an agent
that alone has anything to issue being drawn for certain, and the draw changes nothing but the counter of the draws; so a run
in which one agent after another moves alone is the run of those turns (how the agent is drawn is the model's,
notes/assumptions/1.md, 6.md, 34.md). -/
def Obligations.StepRunsTheNextCommand : Prop :=
  (∀ (s : State) (g : Agent) (c : Cmd) (cs : List Cmd) (i : Instr),
    s.cpu.run = none → s.workOf g = [] → s.env.cmds.of g = c :: cs → decode c = .ok i →
    stepAs g s = exec i { s with env.issuer := g, env.cmds := s.env.cmds.put g cs } ∧
    (s.movers = [g] → step s = exec i { s with env.issuer := g, env.cmds := s.env.cmds.put g cs })) ∧
  (∀ s : State, step s = stepAs s.drawAgent.1 s.drawAgent.2 ∧ ∃ n, s.drawAgent.2 = { s with env.draws := n }) ∧
  (∀ (gs : List Agent) (s : State), MovesAlone gs s → run gs.length s = runAs gs s)

/-- While a `Cpu.run` call is in progress the step is `exec` of the CPU unit's next command, issued by agent `C`; with no
command left it is the return of the call (R117; the field is the model's own, notes/assumptions/8.md). -/
def Obligations.StepInsideARunIsTheCpuUnits : Prop :=
  ∀ (s : State) (r : Run), s.cpu.run = some r →
    (∀ (c : Cmd) (cs : List Cmd) (i : Instr), r.ops = c :: cs → decode c = .ok i →
      step s = exec i { s with cpu.run := some { r with ops := cs }, env.issuer := .c }) ∧
    (r.ops = [] → step s = .next s.finishRun)

/-- The turn of an agent whose next command names no operation refuses it: nothing of the block changes, and the report says
who issued what (R88, R14 d; that a refusal is a next state is the model's reading, notes/assumptions/2.md). The turn of an
agent with nothing to issue changes nothing but whose turn it was (R2: "nothing changes state except an operation"). -/
def Obligations.TurnsWithoutAnOperationChangeNothing : Prop :=
  ∀ (s : State) (g : Agent), s.cpu.run = none → s.workOf g = [] →
    (∀ (c : Cmd) (cs : List Cmd) (r : Reject), s.env.cmds.of g = c :: cs → decode c = .error r →
      ∃ t, stepAs g s = .next t ∧ s.SameBlock t ∧
        t.log = { s.log with refused := s.log.refused ++ [{ agent := g, cmd := c, why := .undecodable r }] }) ∧
    (s.env.cmds.of g = [] → stepAs g s = .next { s with env.issuer := g })

/-- A context in the middle of a composite carries on with it before it takes a new command: an operation among the parts
is `exec` of it, any other part is `doTask` (R104, decision D1; notes/assumptions/4.md). -/
def Obligations.StepCarriesOnWithAComposite : Prop :=
  ∀ (s : State) (g : Agent) (k : Task) (ks : List Task), s.cpu.run = none → s.workOf g = k :: ks →
    (∀ i, k = .op i → stepAs g s = exec i ({ s with env.issuer := g }.putWork g ks)) ∧
    ((∀ i, k ≠ .op i) → stepAs g s = .next (({ s with env.issuer := g }.putWork g ks).doTask k))

/-- An operation always answers a next state, but for a `WAIT` that is held with nobody left to lift the hold (R14, R195,
R220 c; decisions D1, D15, D37). The form of the outcomes is the model's choice: that a refusal is a next state is
notes/assumptions/2.md, that a held `WAIT` is one and a stuck one a fault is notes/assumptions/20.md. -/
def Obligations.OnlyAStuckWaitStopsTheMachine : Prop :=
  ∀ (i : Instr) (s : State), (∃ t, exec i s = .next t) ∨
    (i = .wait ∧ s.MayIssue .a ∧ s.aud.aph = .wait ∧ 2 ≤ s.snk.sq.length ∧ s.othersPending = false ∧
      exec i s = .fault .stuck)

/-! ### Refusals -/

/-- An operation issued by an agent that R86 does not list, or out of place by its own rule, is refused, and so is any but
`PRESET` and `LASTERR` under `FAULT` = 1: nothing of the block changes (R88, R30, R228; decisions D1, D28; that a refusal
is a next state is the model's reading, notes/assumptions/2.md). -/
def Obligations.RefusedCommandsChangeNothing : Prop :=
  ∀ (i : Instr) (s : State),
    (s.env.issuer ∉ i.agents ∨ s.OutOfPlace i ∨ (s.err.fault = true ∧ i ≠ .preset ∧ i ≠ .lasterr)) →
    ∃ t w, exec i s = .next t ∧ s.RefusedTo t (encode i) w

/-! ### Port interface (spec/40_port_interface.md) -/

/-- `PORTW` to an even port inside a run sets the border, the beeper latch and, if bit 4 is 1, `SEEN`, and changes nothing
else (R115, decision D2). -/
def Obligations.EvenPortWriteSetsTheLatches : Prop :=
  ∀ (s : State) (port : BitVec 16) (data : Byte), s.MayIssue .c → s.cpu.run ≠ none → port.getLsbD 0 = false →
    exec (.portw port data) s = .next { s with
      lat.border := data.extractLsb' 0 3
      lat.beep := data.getLsbD 4
      frm.seen := s.frm.seen || data.getLsbD 4 }

/-- Odd ports do not reach the block: a write changes nothing, and a read returns a value that depends on no state of the
block and is the same at every read (R118, decision D7; the value is open, notes/assumptions/14.md). -/
def Obligations.OddPortsDoNotReachTheBlock : Prop :=
  ∀ (s : State) (port : BitVec 16) (data : Byte), s.MayIssue .c → s.cpu.run ≠ none → port.getLsbD 0 = true →
    exec (.portw port data) s = .next s ∧
    exec (.portr port) s = .next { s with log.returns := s.log.returns ++ [(.c, .byte Config.floatBus)] }

/-- `PORTR` from an even port inside a run returns `EAR` in bit 6 and the keyboard in bits 4 to 0, and does not change the
block (R116, R90; bits 5 and 7 and the keyboard are open, notes/assumptions/14.md). -/
def Obligations.EvenPortReadReturnsTheEarLatch : Prop :=
  ∀ (s : State) (port : BitVec 16), s.MayIssue .c → s.cpu.run ≠ none → port.getLsbD 0 = false →
    (∃ t b, exec (.portr port) s = .next t ∧ s.SameBlock t ∧
      t.log = { s.log with returns := s.log.returns ++ [(.c, .byte b)] } ∧ b.getLsbD 6 = s.lat.ear) ∧
    (∀ (x : ReadInput) (xs : List ReadInput), s.env.reads = x :: xs →
      ∃ b : Byte, exec (.portr port) s = .next { s with
          env.reads := xs, log.returns := s.log.returns ++ [(.c, .byte b)] } ∧
        b.getLsbD 6 = s.lat.ear ∧ b.extractLsb' 0 5 = x.kbd ∧ b.getLsbD 5 = x.bit5 ∧ b.getLsbD 7 = x.bit7)

/-- The beeper latch is not the EAR latch: `PORTW` never changes `EAR`; no tape operation and no part of a tape composite
changes `BEEP`, but for the port commands the CPU unit issues in a pulse's cycles, which set it and leave `EAR`; and bit 6 of
a read is `EAR` whatever `BEEP` is (R119; that a composite sets its parts to be carried out one by one, and a pulse its
toggle apart from its chunks, is the model's, notes/assumptions/4.md, 5.md). The `MRESET` at the start of `TPLAY` is an
operation of its own and sets both latches to 0 (R216). -/
def Obligations.BeeperAndEarAreSeparateLatches : Prop :=
  (∀ (s t : State) (port : BitVec 16) (data : Byte), exec (.portw port data) s = .next t → t.lat.ear = s.lat.ear) ∧
  (∀ (s t : State) (img : List Byte), exec (.tload img) s = .next t → t.lat.beep = s.lat.beep) ∧
  (∀ (s t : State) (w : BitVec 16), exec (.pulse w) s = .next t → t.lat.beep = s.lat.beep) ∧
  (∀ (s t : State) (i : BitVec 16), exec (.tblock i) s = .next t → t.lat.beep = s.lat.beep) ∧
  (∀ (s t : State), exec .tpause s = .next t → t.lat.beep = s.lat.beep) ∧
  (∀ (s t : State), exec .tboot s = .next t → t.lat.beep = s.lat.beep) ∧
  (∀ (s t : State) (img : List Byte), exec (.tplay img) s = .next t → t.lat.beep = s.lat.beep) ∧
  (∀ (s : State) (k : Task), (∀ n, k ≠ .chunk n) → (s.doTask k).lat.beep = s.lat.beep) ∧
  (∀ (s : State) (n : Nat), 1 ≤ n → s.tap.tphase ≤ 223 → s.err.fault = false →
    (s.doTask (.chunk n)).lat = s.lat.afterCmds s.drawRun.1.ops ∧ (s.doTask (.chunk n)).lat.ear = s.lat.ear) ∧
  (∀ (s : State) (n : Nat), s.drawRun.1.ops = [] → (s.doTask (.chunk n)).lat = s.lat) ∧
  (∀ (s t : State) (port : BitVec 16) (beep : Bool), s.MayIssue .c → s.cpu.run ≠ none → port.getLsbD 0 = false →
    exec (.portr port) { s with lat.beep := beep } = .next t →
    ∃ b : Byte, t.log.returns = s.log.returns ++ [(.c, .byte b)] ∧ b.getLsbD 6 = s.lat.ear)

/-! ### Frame accumulator (spec/41_frame_accumulator.md) -/

/-- `LINE en` with a CPU unit that returns 224 completes: the entry is 224 if the beeper was high at the start or some
port write of the run left it high, else 0; it is stored if `en`; `FCYC` grows by 224 and `LINE` by 1; `BEEP` and the
border are as the run's port writes leave them; every port read of the run returned `EAR` in bit 6, or the one open value from
an odd port, and every command of the run that is no port operation was refused; nothing of the block that R126 does not name
changes (R126, R127, R20, R115 to R118, R88; decisions D1, D2, D3, D5, D7; the records are the model's own,
notes/assumptions/17.md, and so is the list of commands a run issues, notes/assumptions/7.md, 29.md). -/
def Obligations.LineCountsTheWholeScanlineOrNothing : Prop :=
  ∀ (s : State) (en : Bool), s.MayIssue .p → s.frm.line < 312 → s.NotPlaying → s.drawRun.1.count = 224 →
    ∃ t, exec (.line en) s = .next t ∧
      ((s.lat.beep = true ∨ ∃ c ∈ s.drawRun.1.ops, raisesBeeper c) → t.frm.dur = 224) ∧
      (¬ (s.lat.beep = true ∨ ∃ c ∈ s.drawRun.1.ops, raisesBeeper c) → t.frm.dur = 0) ∧
      t.frm.acc = (if en then s.frm.acc.setIfInBounds s.frm.line t.frm.dur else s.frm.acc) ∧
      t.frm.fcyc = s.frm.fcyc + 224 ∧ t.frm.line = s.frm.line + 1 ∧
      (t.frm.seen = true ↔ s.lat.beep = true ∨ ∃ c ∈ s.drawRun.1.ops, raisesBeeper c) ∧
      t.lat = s.lat.afterCmds s.drawRun.1.ops ∧ (s.drawRun.1.ops = [] → t.lat = s.lat) ∧
      s.RunRecords t s.drawRun.1.ops ∧
      t.lat.ear = s.lat.ear ∧ t.err = s.err ∧ t.mbx = s.mbx ∧ t.aud = s.aud ∧ t.tap = s.tap ∧ t.snk = s.snk ∧
      t.cpu = { regs := s.drawRun.1.regs, run := none } ∧ t.log.calls = s.log.calls ++ [.run 224] ∧
      t.log.faultLog = s.log.faultLog ∧ t.env.pWork = s.env.pWork ∧ t.env.aWork = s.env.aWork ∧
      t.env.cmds = s.env.cmds

/-- `LINE` takes the diagnostic register copy at scanline 156, before the run, whatever the run returns, and at no other
scanline (R131, decision D5). -/
def Obligations.LineTakesTheDiagnosticCopyAtMidFrame : Prop :=
  ∀ (s : State) (en : Bool), s.MayIssue .p → s.frm.line < 312 → s.NotPlaying →
    ∃ t, exec (.line en) s = .next t ∧
      (s.frm.line = 156 → t.frm.diag = s.cpu.regs ∧ t.frm.diagValid = true) ∧
      (s.frm.line ≠ 156 → t.frm.diag = s.frm.diag ∧ t.frm.diagValid = s.frm.diagValid)

/-- A scanline step that executes no cycles is the fatal fault: `FAULT` and `FCODE` written, the scanline not stored,
`LINE` not advanced, what the run's port commands did kept, and no operation but `PRESET` and `LASTERR` is accepted after it,
whoever issues it (R128, R227, R228, R88, R116, R118; decisions D1, D7; that a refusal is a next state with a report, the
records, and the list of commands a run issues are the model's, notes/assumptions/2.md, 7.md, 17.md, 29.md). -/
def Obligations.LineWithoutCyclesIsFatal : Prop :=
  ∀ (s : State) (en : Bool), s.MayIssue .p → s.frm.line < 312 → s.NotPlaying → s.drawRun.1.count = 0 →
    ∃ t, exec (.line en) s = .next t ∧
      t.err = { s.err with fault := true, fcode := .cpuZero } ∧ t.log.faultLog = s.log.faultLog ++ [.cpuZero] ∧
      t.frm.acc = s.frm.acc ∧ t.frm.line = s.frm.line ∧ t.frm.fcyc = s.frm.fcyc ∧ t.frm.dur = 0 ∧
      t.mbx = s.mbx ∧ t.aud = s.aud ∧ t.tap = s.tap ∧ t.snk = s.snk ∧ t.lat.ear = s.lat.ear ∧ t.env.pWork = [] ∧
      t.lat = s.lat.afterCmds s.drawRun.1.ops ∧ s.RunRecords t s.drawRun.1.ops ∧
      ∀ (i : Instr) (g : Agent), i ≠ .preset → i ≠ .lasterr →
        ∃ u, exec i { t with env.issuer := g } = .next u ∧ t.SameBlock u ∧
          u.log.refused.length = t.log.refused.length + 1

/-- A count other than 0 and 224 is the same kind of fault under the other code, and what the run's port commands did is kept
(R129, R227, R88, R116, R118; decisions D1, D3, D7; that a refusal is reported as it is, the records, and the list of
commands a run issues are the model's, notes/assumptions/2.md, 7.md, 17.md, 29.md). -/
def Obligations.LineWithAWrongCountIsFatal : Prop :=
  ∀ (s : State) (en : Bool), s.MayIssue .p → s.frm.line < 312 → s.NotPlaying → s.drawRun.1.count ≠ 0 →
    s.drawRun.1.count ≠ 224 →
    ∃ t, exec (.line en) s = .next t ∧
      t.err = { s.err with fault := true, fcode := .cpuCount } ∧ t.log.faultLog = s.log.faultLog ++ [.cpuCount] ∧
      t.frm.acc = s.frm.acc ∧ t.frm.line = s.frm.line ∧ t.frm.fcyc = s.frm.fcyc ∧ t.frm.dur = 0 ∧
      t.mbx = s.mbx ∧ t.aud = s.aud ∧ t.tap = s.tap ∧ t.snk = s.snk ∧ t.lat.ear = s.lat.ear ∧ t.env.pWork = [] ∧
      t.lat = s.lat.afterCmds s.drawRun.1.ops ∧ s.RunRecords t s.drawRun.1.ops

/-- With `en` = 0 a scanline runs exactly as with `en` = 1 but `ACC` is not written; `FRAME en` gives all its 312 scanlines
the same `en`, ends in `EOF` and is not followed by `POST`: its parts are set to be carried out next and nothing else
changes (R130; and R133, R104; that the step only sets the parts, on a field of the model's own, is the model's,
notes/assumptions/4.md). -/
def Obligations.NullAccumulatorOnlyDropsTheStore : Prop :=
  (∀ s : State, s.MayIssue .p → s.frm.line < 312 → s.NotPlaying →
    ∃ t, exec (.line true) s = .next t ∧ exec (.line false) s = .next { t with frm.acc := s.frm.acc }) ∧
  (∀ (s : State) (en : Bool), s.MayIssue .p → s.frm.line = 0 → s.NotPlaying →
    exec (.frame en) s = .next { s with
      env.pWork := List.replicate 312 (.op (.line en)) ++ [.op .eof] ++ s.env.pWork })

/-- `EOF` starts the next frame and makes the frame interrupt request exactly if interrupts are enabled and the mode is 1
(R132, R234, decision D6; which flip-flop and mode is the spec's general knowledge, notes/assumptions/31.md). -/
def Obligations.EofEndsTheFrame : Prop :=
  ∀ s : State, s.MayIssue .p → s.frm.line = 312 →
    ((s.cpu.regs.iff1 = true ∧ s.cpu.regs.im = .im1) →
      ∃ t, exec .eof s = .next t ∧ t.frm = { s.frm with line := 0, fcyc := 0 } ∧
        t.log = { s.log with calls := s.log.calls ++ [.interrupt Config.intVector] } ∧ t.lat = s.lat ∧ t.err = s.err ∧
        t.mbx = s.mbx ∧ t.aud = s.aud ∧ t.tap = s.tap ∧ t.snk = s.snk ∧ t.cpu.run = s.cpu.run ∧
        t.env.pWork = s.env.pWork ∧ t.env.aWork = s.env.aWork) ∧
    (¬ (s.cpu.regs.iff1 = true ∧ s.cpu.regs.im = .im1) →
      exec .eof s = .next { s with frm.line := 0, frm.fcyc := 0 })

/-- A `FRAME en` command carried out by `P` alone, the CPU unit keeping its contract in all 312 runs and issuing any port
commands it likes: exactly 312 runs of 224 cycles and at most one interrupt request; every entry of `ACC` is 0 or 224, and
224 where the run raised the beeper (`ACC` unchanged if `en` = 0); the next frame may begin, and nothing of the mailbox,
the audio pipeline, the tape or `EAR` has changed (R133, R135, R125; decisions D1, D3). -/
def Obligations.FrameRunsToItsEnd : Prop :=
  ∀ (s : State) (en : Bool) (cs : List Cmd) (as rest : List RunAnswer),
    s.cpu.run = none → s.err.fault = false → s.frm.line = 0 → s.frm.fcyc = 0 → s.NotPlaying → s.env.pWork = [] →
    s.env.cmds.p = encode (.frame en) :: cs →
    s.env.runs = as ++ rest → as.length = 312 → (∀ a ∈ as, a.count = 224) →
    ∃ t, runAs (List.replicate 314 .p) s = .next t ∧
      t.frm.line = 0 ∧ t.frm.fcyc = 0 ∧ t.err = s.err ∧ t.frm.diagValid = true ∧
      (en = false → t.frm.acc = s.frm.acc) ∧
      (en = true → AllOrNothing t.frm.acc ∧
        ∀ k a, k < 312 → as[k]? = some a → (∃ c ∈ a.ops, raisesBeeper c) → t.frm.acc.entry k = 224) ∧
      (t.log.calls = s.log.calls ++ List.replicate 312 (.run 224) ∨
        t.log.calls = s.log.calls ++ List.replicate 312 (.run 224) ++ [.interrupt Config.intVector]) ∧
      t.lat.ear = s.lat.ear ∧ t.mbx = s.mbx ∧ t.aud = s.aud ∧ t.tap = s.tap ∧ t.snk = s.snk ∧ t.cpu.run = none ∧
      t.env.pWork = [] ∧ t.env.cmds.p = cs ∧ t.env.runs = rest

/-- `STEADY` is `FRAME 1`, then `POST`: these are set to be carried out next and nothing else changes, whatever the audio
context is doing, which `P` does not wait for; its word has `op` = 0x13 (R134; refused where `FRAME 1` would be, R104; that
the step only sets the parts, on a field of the model's own, is the model's, notes/assumptions/4.md). -/
def Obligations.SteadyIsAFrameThenAPost : Prop :=
  decode ⟨0x13000000#32, []⟩ = .ok .steady ∧
  ∀ s : State, s.MayIssue .p → s.frm.line = 0 → s.NotPlaying →
    exec .steady s = .next { s with env.pWork := [.op (.frame true), .op .post] ++ s.env.pWork }

/-! ### Tape-pulse generator (spec/42_tape_pulse_generator.md) -/

/-- `TLOAD` buffers the image, keeps its blocks and returns true; or returns false with the reason in `TERR` and no blocks:
the parser's error, or `E_NOMEM` with `TIMG` untouched (R146, R229, R230; decisions D23, D25, D26). -/
def Obligations.TloadKeepsTheBlocksOrTheReason : Prop :=
  ∀ (s : State) (img : List Byte), s.MayIssue .p → s.tap.tst = .idle →
    ∃ t ok, exec (.tload img) s = .next t ∧
      t.log = { s.log with returns := s.log.returns ++ [(.p, .bool ok)] } ∧
      t.lat = s.lat ∧ t.frm = s.frm ∧ t.mbx = s.mbx ∧ t.aud = s.aud ∧ t.snk = s.snk ∧ t.cpu = s.cpu ∧
      t.err.fault = false ∧ t.err.fcode = s.err.fcode ∧ t.env.pWork = s.env.pWork ∧ t.env.aWork = s.env.aWork ∧
      (∀ bs, s.drawAlloc.1 = true → parseTape img = .ok bs →
        ok = true ∧ t.err.terr = .none ∧ t.tap = { s.tap with timg := img, tblk := bs }) ∧
      (∀ e, s.drawAlloc.1 = true → parseTape img = .error e →
        ok = false ∧ t.err.terr = e ∧ t.tap = { s.tap with timg := img, tblk := [] }) ∧
      (s.drawAlloc.1 = false → ok = false ∧ t.err.terr = .noMem ∧ t.tap = { s.tap with tblk := [] })

/-- An image that parses is the concatenation of zero or more records, each a little-endian length and that many payload
bytes, with nothing after the last; every concatenation of records whose payloads begin with a flag byte parses; and the
blocks are the payloads, flag byte included, in order. Every block lies in the image, so no declared length exceeds what
remains, has at least its flag byte, and the flag byte is 0x00 or 0xFF (R92). -/
def Obligations.ParsedBlocksLieInTheImage : Prop :=
  (∀ (img : List Byte) (bs : List (Nat × Nat)), parseTape img = .ok bs →
    (∀ b ∈ bs, 1 ≤ b.2 ∧ b.1 + b.2 ≤ img.length ∧ (img[b.1]? = some 0x00#8 ∨ img[b.1]? = some 0xFF#8)) ∧
    (∀ b ∈ bs, IsPayload (payload img b)) ∧ img = (bs.map (payload img)).flatMap recordBytes) ∧
  (∀ ds : List (List Byte), (∀ d ∈ ds, IsPayload d) →
    ∃ bs, parseTape (ds.flatMap recordBytes) = .ok bs ∧ bs.map (payload (ds.flatMap recordBytes)) = ds)

/-- The length of a record is its first byte plus 256 times its second, at most 65535; its payload stands right after the
two, and the next record, if any, right after the payload: the rest of the image is parsed from there (R93). -/
def Obligations.RecordLengthIsLittleEndian : Prop :=
  ∀ (lo hi : Byte) (rest : List Byte) (p : Nat),
    let n := lo.toNat + 256 * hi.toNat
    n ≤ 65535 ∧
    (1 ≤ n → n ≤ rest.length → rest.head? = some 0x00#8 ∨ rest.head? = some 0xFF#8 →
      (∀ bs, parseFrom (rest.drop n) 0 (p + 2 + n) = .ok bs → parseFrom (lo :: hi :: rest) 0 p = .ok ((p + 2, n) :: bs)) ∧
      (∀ e, parseFrom (rest.drop n) 0 (p + 2 + n) = .error e → parseFrom (lo :: hi :: rest) 0 p = .error e))

/-- An image that ends inside a record's length prefix, or whose record declares more bytes than remain, or none, or has
another flag byte, fails with the code R226 gives, the checks in this order (R146, R147, R239; decisions D23, D26). -/
def Obligations.ParserReportsTheFirstFailingCheck : Prop :=
  ∀ (lo hi : Byte) (rest : List Byte) (p : Nat),
    parseFrom [lo] 0 p = .error .tapeTrunc ∧
    (rest.length < lo.toNat + 256 * hi.toNat → parseFrom (lo :: hi :: rest) 0 p = .error .tapeLen) ∧
    (lo.toNat + 256 * hi.toNat = 0 → parseFrom (lo :: hi :: rest) 0 p = .error .tapeFraming) ∧
    (∀ f more, rest = f :: more → f ≠ 0x00#8 → f ≠ 0xFF#8 → 1 ≤ lo.toNat + 256 * hi.toNat →
      lo.toNat + 256 * hi.toNat ≤ rest.length → parseFrom (lo :: hi :: rest) 0 p = .error .tapeFraming)

/-- The pulse the machine plays at position `k` is element `k` of the list of R149, whose length is `N + 2 + 16 n`, an odd
number, and whose widths add up to `2168 N + 1402 + 1710 (8 n + ones)` cycles, `N` being 8063 for a header block and 3223
for a data block (R148, R149, R96, R97, R99; decisions D19, D24; R99 is an inference the spec marks as its own). -/
def Obligations.PulsePlayedIsThePulseListed : Prop :=
  ∀ d : List Byte,
    (d.head? = some 0x00#8 → pilotCount d = 8063) ∧ (d.head? = some 0xFF#8 → pilotCount d = 3223) ∧
    (∀ k, k < pulseCount d → (pulses d)[k]? = some (pulseAt d k)) ∧
    (pulses d).length = pulseCount d ∧ (pulses d).length % 2 = 1 ∧
    (pulses d).sum = 2168 * pilotCount d + 1402 +
      1710 * (8 * d.length + (d.map fun b => (List.range 8).countP fun k => b.getLsbD k).sum)

/-- `PULSE w` toggles `EAR` and sets its `w` cycles to be run next; nothing else changes (R150, decisions D19, D20; that
the toggle is a step of its own and the cycles are set on a work list is the model's, notes/assumptions/4.md, 5.md). -/
def Obligations.PulseTogglesTheEarLatch : Prop :=
  ∀ (s : State) (w : BitVec 16), s.MayIssue .p → s.frm.line = 0 → w ≠ 0#16 →
    exec (.pulse w) s = .next { s with lat.ear := !s.lat.ear, env.pWork := .chunk w.toNat :: s.env.pWork }

/-- One chunk with a CPU unit that keeps its contract: it asks for the cycles up to the next tape line's end, or the
pulse's rest if that is less; short of the line's end only `TPHASE` moves, beside what the run's port commands do; at the line's end the line takes the level of
`EAR`, and if it is not the 312th `TLN` moves on (R150, R151; decisions D16, D20); the 312th is
`Obligations.TapeFrameCompletionPostsTheFrame`. A run that returns another count is the fatal fault: `FAULT` and `FCODE`
written, phase, lines and mailbox as before, `EAR` as the toggle left it, the composite over (R128, R129, R150, R227;
decision D3). Whatever the count, of the frame accumulator only `SEEN` can change, and only as the run's port writes raise the
beeper; every port read of the run returned the pulse's level in bit 6, or the one open value from an odd port; and every
command of the run that is no port operation was refused (R88, R116 to R118, R162; decisions D1, D7; the records are the
model's own, notes/assumptions/17.md, and so is the list of commands a run issues, notes/assumptions/7.md, 29.md). That a
chunk is a step of its own is the model's, notes/assumptions/5.md. -/
def Obligations.ChunkRunsUpToTheLineBoundary : Prop :=
  ∀ (s : State) (n : Nat), 1 ≤ n → s.tap.tphase ≤ 223 →
    (∃ t, s.doTask (.chunk n) = t ∧ t.frm = { s.frm with seen := t.frm.seen } ∧
      (s.err.fault = false →
        (t.frm.seen = true ↔ s.frm.seen = true ∨ ∃ c ∈ s.drawRun.1.ops, raisesBeeper c) ∧
        t.lat = s.lat.afterCmds s.drawRun.1.ops ∧ s.RunRecords t s.drawRun.1.ops)) ∧
    (s.drawRun.1.count = min n (224 - s.tap.tphase) → ∃ t, s.doTask (.chunk n) = t ∧
      t.lat.ear = s.lat.ear ∧ t.err = s.err ∧ t.aud = s.aud ∧ t.frm.acc = s.frm.acc ∧ t.frm.line = s.frm.line ∧
      t.env.pWork = (if n ≤ 224 - s.tap.tphase then s.env.pWork
        else .chunk (n - (224 - s.tap.tphase)) :: s.env.pWork) ∧
      (n < 224 - s.tap.tphase → t.tap = { s.tap with tphase := s.tap.tphase + n } ∧ t.mbx = s.mbx ∧ t.snk = s.snk) ∧
      (224 - s.tap.tphase ≤ n → s.tap.tln ≠ 311 →
        t.tap = { s.tap with
          tphase := 0, tln := s.tap.tln + 1
          tacc := s.tap.tacc.setIfInBounds s.tap.tln (if s.lat.ear then 224 else 0) } ∧
        t.mbx = s.mbx ∧ t.snk = s.snk) ∧
      (n < 224 - s.tap.tphase ∨ s.tap.tln ≠ 311 →
        t.log.calls = s.log.calls ++ [.run (min n (224 - s.tap.tphase))])) ∧
    (s.drawRun.1.count ≠ min n (224 - s.tap.tphase) → ∃ t, s.doTask (.chunk n) = t ∧
      t.err = { s.err with fault := true, fcode := if s.drawRun.1.count = 0 then .cpuZero else .cpuCount } ∧
      t.log.faultLog = s.log.faultLog ++ [if s.drawRun.1.count = 0 then .cpuZero else .cpuCount] ∧
      t.log.calls = s.log.calls ++ [.run (min n (224 - s.tap.tphase))] ∧
      t.tap = s.tap ∧ t.mbx = s.mbx ∧ t.snk = s.snk ∧ t.aud = s.aud ∧ t.lat.ear = s.lat.ear ∧ t.frm.acc = s.frm.acc ∧
      t.frm.line = s.frm.line ∧ t.env.pWork = [])

/-- The 312th tape line completes the tape frame: the frame stands in the mailbox as a tape frame, `TLN` starts over, `TFR`
grows, and the frame interrupt request is made exactly under the condition of `EOF`; so does the pulse chunk that ends that
line, on the registers its run leaves (R150 to R152, R234, decisions D6, D16, D21; which flip-flop and mode is the spec's
general knowledge, notes/assumptions/31.md; that a chunk is one step is the model's, notes/assumptions/5.md). -/
def Obligations.TapeFrameCompletionPostsTheFrame : Prop :=
  ∀ s : State, s.tap.tln = 311 →
    let F := s.tap.tacc.setIfInBounds 311 (if s.lat.ear then 224 else 0)
    s.emitLine.mbx = { mb := F, ready := true, src := .tape } ∧
    s.emitLine.tap = { s.tap with tacc := F, tln := 0, tfr := s.tap.tfr + 1 } ∧
    s.emitLine.lat = s.lat ∧ s.emitLine.frm = s.frm ∧ s.emitLine.err = s.err ∧ s.emitLine.aud = s.aud ∧
    s.emitLine.snk.sq = s.snk.sq ∧ s.emitLine.snk.out = s.snk.out ∧
    s.emitLine.log.calls = s.log.calls ++
      (if s.cpu.regs.iff1 = true ∧ s.cpu.regs.im = .im1 then [.interrupt Config.intVector] else []) ∧
    s.emitLine.snk.rlog = s.snk.rlog ++
      (if 0 < Config.refreshPeriod ∧ (s.tap.tfr + 1) % Config.refreshPeriod = 0 then [(s.tap.tbi, s.tap.tpi)] else []) ∧
    ∀ n : Nat, s.tap.tphase ≤ 223 → 224 - s.tap.tphase ≤ n → s.drawRun.1.count = 224 - s.tap.tphase →
      ∃ t, s.doTask (.chunk n) = t ∧
        t.mbx = { mb := F, ready := true, src := .tape } ∧
        t.tap = { s.tap with tphase := 0, tacc := F, tln := 0, tfr := s.tap.tfr + 1 } ∧
        t.lat.ear = s.lat.ear ∧ t.frm = { s.frm with seen := t.frm.seen } ∧ t.err = s.err ∧ t.aud = s.aud ∧
        t.snk.sq = s.snk.sq ∧ t.snk.out = s.snk.out ∧
        t.log.calls = s.log.calls ++ [.run (224 - s.tap.tphase)] ++
          (if s.drawRun.1.regs.iff1 = true ∧ s.drawRun.1.regs.im = .im1 then [.interrupt Config.intVector] else []) ∧
        t.snk.rlog = s.snk.rlog ++
          (if 0 < Config.refreshPeriod ∧ (s.tap.tfr + 1) % Config.refreshPeriod = 0 then [(s.tap.tbi, s.tap.tpi)]
           else []) ∧
        t.env.pWork = (if n ≤ 224 - s.tap.tphase then s.env.pWork
          else .chunk (n - (224 - s.tap.tphase)) :: s.env.pWork)

/-- A `PULSE w` command carried out by `P` alone, the CPU unit keeping its contract: `EAR` has toggled once, the runs asked
for are the chunks up to each line boundary and add up to `w`, and phase, line and frame counters have moved on by exactly
`w` cycles (R150, R151, R152, R162; decisions D16, D19, D20). -/
def Obligations.PulseRunsToItsEnd : Prop :=
  ∀ (s : State) (w : BitVec 16) (cs : List Cmd) (as rest : List RunAnswer),
    s.cpu.run = none → s.err.fault = false → s.frm.line = 0 → w ≠ 0#16 → s.tap.tphase ≤ 223 → s.tap.tln ≤ 311 →
    s.env.pWork = [] → s.env.cmds.p = encode (.pulse w) :: cs →
    s.env.runs = as ++ rest →
    as.map RunAnswer.count = pulseRuns s.tap.tphase w.toNat →
    ∃ t, runAs (List.replicate (1 + as.length) .p) s = .next t ∧
      t.lat.ear = !s.lat.ear ∧ t.err = s.err ∧ t.aud = s.aud ∧ t.frm.acc = s.frm.acc ∧ t.frm.line = 0 ∧
      runCycles t.log.calls = runCycles s.log.calls ++ pulseRuns s.tap.tphase w.toNat ∧
      (pulseRuns s.tap.tphase w.toNat).sum = w.toNat ∧
      t.tap.tphase = (s.tap.tphase + w.toNat) % 224 ∧
      t.tap.tln = (s.tap.tln + (s.tap.tphase + w.toNat) / 224) % 312 ∧
      t.tap.tfr = s.tap.tfr + (s.tap.tln + (s.tap.tphase + w.toNat) / 224) / 312 ∧
      t.env.pWork = [] ∧ t.env.cmds.p = cs ∧ t.env.runs = rest

/-- `TBLOCK i` takes up block `i` at its first pulse and changes nothing else; then position `k` of its pulse list is noted in
`TPI` and played as a `PULSE`, with the next position to follow; after the last pulse there is one `Refresh()` call and the
block is over (R153, R154, R149; decisions D19, D25, D30). The model's choices: `TBI` and `TPI` are written for a `TBLOCK`
on its own too (notes/assumptions/21.md), `TPI` keeps the last pulse's index in the refresh tag and after the block
(notes/assumptions/22.md), and each is written in the same step as the part beside it (notes/assumptions/4.md). -/
def Obligations.TblockPlaysItsPulseListThenRefreshes : Prop :=
  (∀ (s : State) (i : BitVec 16), s.MayIssue .p → s.frm.line = 0 → i.toNat < s.tap.tblk.length →
    exec (.tblock i) s = .next { s with tap.tbi := i.toNat, env.pWork := .blockPulse 0 :: s.env.pWork }) ∧
  (∀ (s : State) (k w : Nat), s.MayIssue .p → s.frm.line = 0 → (pulses s.blockPayload)[k]? = some w →
    s.doTask (.blockPulse k) = { s with
      tap.tpi := k, lat.ear := !s.lat.ear, env.pWork := .chunk w :: .blockPulse (k + 1) :: s.env.pWork }) ∧
  (∀ (s : State) (k : Nat), (pulses s.blockPayload).length ≤ k →
    s.doTask (.blockPulse k) = { s with snk.rlog := s.snk.rlog ++ [(s.tap.tbi, s.tap.tpi)] })

/-- `TPAUSE` forces `EAR` to 0 and changes nothing else (R155, decision D22). -/
def Obligations.TpauseLowersTheEarLatch : Prop :=
  ∀ s : State, s.MayIssue .p → exec .tpause s = .next { s with lat.ear := false }

/-- `TBOOT` sets 200 frames with the null accumulator to be carried out, then for each chord of the script a press,
`KEY_HOLD_FRAMES` such frames and a release; nothing else changes. Each press and each release, when its turn comes, is a
request to the host and changes nothing of the block (R156, R219; decisions D25, D29; that the step only sets the parts is
the model's, notes/assumptions/4.md, and so is the record of the requests, notes/assumptions/17.md, 26.md). -/
def Obligations.TbootWarmsUpThenTypesTheScript : Prop :=
  (∀ s : State, s.MayIssue .p → s.frm.line = 0 → s.NotPlaying →
    exec .tboot s = .next { s with
      env.pWork := List.replicate 200 (.op (.frame false)) ++ (Config.keyScript.flatMap fun k =>
        [.keyPress k] ++ List.replicate Config.keyHoldFrames (.op (.frame false)) ++ [.keyRelease k]) ++ s.env.pWork }) ∧
  (∀ (s : State) (k : Chord),
    s.doTask (.keyPress k) = { s with log.keys := s.log.keys ++ [.press k] } ∧
    s.doTask (.keyRelease k) = { s with log.keys := s.log.keys ++ [.release k] })

/-- `TPLAY img` sets the machine reset and then the load to be carried out, and changes nothing else; the load of an image
with blocks then goes on to the boot with the counters at 0, and after it the blocks; a load that fails, by the image or for
want of memory, returns false with the reason and goes on to nothing (R158 steps 1 to 5, R159, R229, R230; decisions D25,
D26). The `TLOAD` returns its boolean and, if the load is over, `TPLAY` its own (R221; that both are recorded is the model's
reading, notes/assumptions/36.md). That the first step only sets the reset to be done, and that the counters and
`TST` = `T_BOOT` are written in the step of the load, is the model's (notes/assumptions/4.md). -/
def Obligations.TplayResetsLoadsAndBoots : Prop :=
  (∀ (s : State) (img : List Byte), s.MayIssue .p → s.tap.tst = .idle → s.frm.line = 0 →
    exec (.tplay img) s = .next { s with env.pWork := .op .mreset :: .playLoad img :: s.env.pWork }) ∧
  (∀ (s : State) (img : List Byte) (b : Nat × Nat) (bs : List (Nat × Nat)), s.MayIssue .p → s.tap.tst = .idle →
    s.drawAlloc.1 = true → parseTape img = .ok (b :: bs) →
    ∃ t, s.doTask (.playLoad img) = t ∧
      t.tap = { s.tap with
        timg := img, tblk := b :: bs, tst := .boot, tdone := 0, tfr := 0, tln := 0, tphase := 0 } ∧
      t.err = { s.err with terr := .none } ∧ t.env.pWork = .op .tboot :: .playBlock 0 :: s.env.pWork ∧
      t.lat = s.lat ∧ t.frm = s.frm ∧ t.mbx = s.mbx ∧ t.aud = s.aud ∧ t.snk = s.snk ∧ t.cpu = s.cpu ∧
      t.log = { s.log with returns := s.log.returns ++ [(.p, .bool true)] }) ∧
  (∀ (s : State) (img : List Byte) (e : ErrCode), s.MayIssue .p → s.tap.tst = .idle →
    (s.drawAlloc.1 = true ∧ parseTape img = .error e ∨ s.drawAlloc.1 = false ∧ e = .noMem) →
    ∃ t, s.doTask (.playLoad img) = t ∧
      t.tap = { s.tap with timg := if s.drawAlloc.1 then img else s.tap.timg, tblk := [] } ∧
      t.err = { s.err with terr := e } ∧ t.env.pWork = s.env.pWork ∧
      t.lat = s.lat ∧ t.frm = s.frm ∧ t.mbx = s.mbx ∧ t.aud = s.aud ∧ t.snk = s.snk ∧ t.cpu = s.cpu ∧
      t.log = { s.log with returns := s.log.returns ++ [(.p, .bool false), (.p, .bool false)] })

/-- The blocks of a load are played in order: block `i` with `TST` = `T_PULSES`, then its pause with `TST` = `T_PAUSE` and
`EAR` = 0 and `TDONE` one more, then the next; after the last `TST` is `T_IDLE` and true is returned (R158 steps 6 and 7;
decision D25). Which of these writes fall into one step is the model's: `TST` with the start of the block, and `TST`, `EAR` and
`TDONE` at the pause (notes/assumptions/4.md). -/
def Obligations.TapeBlocksArePlayedInOrder : Prop :=
  ∀ (s : State) (i : Nat), s.MayIssue .p → s.frm.line = 0 →
    (i < s.tap.tblk.length → s.doTask (.playBlock i) = { s with
      tap.tst := .pulses, tap.tbi := i, env.pWork := .blockPulse 0 :: .playPause i :: s.env.pWork }) ∧
    (s.tap.tblk.length ≤ i → s.doTask (.playBlock i) = { s with
      tap.tst := .idle, log.returns := s.log.returns ++ [(.p, .bool true)] }) ∧
    s.doTask (.playPause i) = { s with
      tap.tst := .pause, tap.tdone := s.tap.tdone + 1, lat.ear := false
      env.pWork := .playBlock (i + 1) :: s.env.pWork }

/-- `TPLAY` of the empty image, carried out by `P` alone: three steps, true returned by it and by its `TLOAD`, no blocks done, no load in progress,
and no call of `Cpu.run` (R160, vector T1 of spec/95_test_vectors.md; decision D25; the three steps are the model's,
notes/assumptions/4.md, and so is that both returned values are recorded, notes/assumptions/36.md). -/
def Obligations.EmptyImageLoadsWithoutRunningTheCpu : Prop :=
  ∀ (s : State) (cs : List Cmd) (more : List Bool),
    s.cpu.run = none → s.err.fault = false → s.tap.tst = .idle → s.frm.line = 0 → s.env.pWork = [] →
    s.env.cmds.p = encode (.tplay []) :: cs → s.env.allocs = true :: more →
    ∃ t, runAs [.p, .p, .p] s = .next t ∧
      t.log = { s.log with
        calls := s.log.calls ++ [.reset], returns := s.log.returns ++ [(.p, .bool true), (.p, .bool true)] } ∧
      t.tap = { s.tap with timg := [], tblk := [], tdone := 0, tfr := 0, tln := 0, tphase := 0 } ∧
      t.err = { s.err with terr := .none } ∧ t.lat.beep = false ∧ t.lat.ear = false ∧
      t.frm = { s.frm with dur := 0, seen := false, fcyc := 0 } ∧ t.mbx = s.mbx ∧ t.aud = s.aud ∧ t.snk = s.snk ∧
      t.env.pWork = [] ∧ t.env.cmds.p = cs

/-- `TPLAY` of an image the parser rejects, or for which the host has no memory, carried out by `P` alone: false returned by
its `TLOAD` and passed on, the reason in `TERR`, the machine in its reset state and nothing else of the block changed
(`TIMG` too, if there was no memory): no pulse, no boot, no call of `Cpu.run` (R159, R229, R230, program P4 of spec/95_test_vectors.md; decisions D23,
D25, D26; that both returned values are recorded is the model's reading, notes/assumptions/36.md). -/
def Obligations.FailedLoadLeavesTheResetMachine : Prop :=
  ∀ (s : State) (img : List Byte) (e : ErrCode) (ok : Bool) (cs : List Cmd) (more : List Bool),
    s.cpu.run = none → s.err.fault = false → s.tap.tst = .idle → s.frm.line = 0 → s.env.pWork = [] →
    s.env.cmds.p = encode (.tplay img) :: cs → s.env.allocs = ok :: more →
    (ok = true ∧ parseTape img = .error e ∨ ok = false ∧ e = .noMem) →
    ∃ t, runAs [.p, .p, .p] s = .next t ∧
      t.log = { s.log with
        calls := s.log.calls ++ [.reset], returns := s.log.returns ++ [(.p, .bool false), (.p, .bool false)] } ∧
      t.tap = { s.tap with timg := if ok then img else s.tap.timg, tblk := [] } ∧
      t.err = { s.err with terr := e } ∧ t.lat.beep = false ∧
      t.lat.ear = false ∧ t.frm = { s.frm with dur := 0, seen := false, fcyc := 0 } ∧ t.mbx = s.mbx ∧ t.aud = s.aud ∧
      t.snk = s.snk ∧ t.env.pWork = []

/-! ### Beeper audio pipeline (spec/43_beeper_audio_pipeline.md) -/

/-- `SETVOL level` stores the level, 0 to 10, and changes nothing else (R181, decision D31). -/
def Obligations.SetvolStoresTheLevel : Prop :=
  ∀ (s : State) (level : BitVec 4), s.MayIssue .h ∨ s.MayIssue .p → level.toNat ≤ 10 →
    exec (.setvol level) s = .next { s with aud.vol := level.toNat }

/-- `POST`, `op` = 0x31, between frames puts the accumulator into the mailbox with its source and the ready flag, all
together, whatever the mailbox held, and changes nothing else; from another agent than `P`, under `FAULT` = 1 or in mid-frame
it is refused (R182; that a refusal is a next state with a report is the model's reading, notes/assumptions/2.md). -/
def Obligations.PostHandsOverTheAccumulator : Prop :=
  decode ⟨0x31000000#32, []⟩ = .ok .post ∧
  (∀ s : State, s.MayIssue .p → s.frm.line = 0 →
    exec .post s = .next { s with mbx := { mb := s.frm.acc, ready := true, src := .beeper } }) ∧
  (∀ s : State, s.env.issuer ≠ .p ∨ s.err.fault = true ∨ s.frm.line ≠ 0 →
    ∃ t w, exec .post s = .next t ∧ s.RefusedTo t (encode .post) w)

/-- `TAKE`, `op` = 0x32, at its position takes the mailbox frame and its source if the ready flag is set, clears the flag and
leaves `MB`; else it only notes that there is none; elsewhere, from another agent than `A` or under `FAULT` = 1, it is
refused (R183; that a refusal is a next state with a report is the model's reading, notes/assumptions/2.md). -/
def Obligations.TakeCopiesTheMailboxFrame : Prop :=
  decode ⟨0x32000000#32, []⟩ = .ok .take ∧
  (∀ s : State, s.MayIssue .a → s.aud.aph = .take → s.mbx.ready = true →
    exec .take s = .next { s with
      aud.cur := s.mbx.mb, aud.curSrc := s.mbx.src, aud.curValid := true, aud.aph := .render, mbx.ready := false }) ∧
  (∀ s : State, s.MayIssue .a → s.aud.aph = .take → s.mbx.ready = false →
    exec .take s = .next { s with aud.curValid := false, aud.aph := .render }) ∧
  (∀ s : State, s.env.issuer ≠ .a ∨ s.err.fault = true ∨ s.aud.aph ≠ .take →
    ∃ t w, exec .take s = .next t ∧ s.RefusedTo t (encode .take) w)

/-- `RENDER` writes the active buffer and the carry, never the other buffer: silence if no frame was taken, the steady-state
formula for a beeper frame, the tape formula at two levels less for a tape frame (R184, R185, R191, R192, R193; decisions
D8, D9, D13, D14, D17, D18; PEAK and FADE are open, notes/assumptions/12.md; that the formula holds at a tape level of 0 too,
where the first sample is half the carry and not silence, is the model's reading, notes/assumptions/39.md). -/
def Obligations.RenderFillsTheActiveBuffer : Prop :=
  ∀ s : State, s.MayIssue .a → s.aud.aph = .render →
    ∃ (f : PcmFrame) (q : Int), exec .render s = .next { s with
        aud.pcm := s.aud.pcm.set s.aud.ab f, aud.sprev := q, aud.aph := .submit } ∧
      (s.aud.curValid = false → q = 0 ∧ ∀ i (h : i < 320), f[i] = 0) ∧
      (s.aud.curValid = true → s.aud.curSrc = .beeper →
        q = 0 ∧ ∀ i (h : i < 320), f[i] = steadySample Config.peak Config.fade s.aud.vol s.aud.cur i) ∧
      (s.aud.curValid = true → s.aud.curSrc = .tape →
        q = tapeUnsmoothed Config.peak (s.aud.vol - 2) s.aud.cur 319 ∧
        ∀ i (h : i < 320), f[i] = tapeSample Config.peak (s.aud.vol - 2) s.aud.cur s.aud.sprev i)

/-- Every steady-state sample, and every tape sample whose carry is so, is within the peak amplitude, so no sample overflows
(R190, R193; decisions D9, D16, D18). -/
def Obligations.SamplesAreWithinThePeak : Prop :=
  (∀ (peak fade level i : Nat) (F : LineFrame), 1 ≤ fade → fade ≤ 160 → level ≤ 10 → i < 320 →
    (∀ k, k < 312 → F.entry k ≤ 224) → (steadySample peak fade level F i).natAbs ≤ peak) ∧
  (∀ (peak lt i : Nat) (F : LineFrame) (q : Int), lt ≤ 10 → i < 320 → q.natAbs ≤ peak →
    (∀ k, k < 312 → F.entry k ≤ 224) →
    (tapeUnsmoothed peak lt F i).natAbs ≤ peak ∧ (tapeSample peak lt F q i).natAbs ≤ peak)

/-- The frame with every entry `e` replaced by `224 - e` renders to the negated samples (R190); the frame that is 112
throughout renders to zeros only, at every level, peak and fade, on the tape path too, where the first sample is half the
carry and so 0 for a carry of 0 (R201, R193; that it is half the carry at a tape level of 0 too, which R192 calls silence, is
the model's reading, notes/assumptions/39.md); the first and the last sample of every steady-state frame are 0 (R189). Decisions
D9, D13, D16 and D18; R201 is an inference the spec marks as its own. -/
def Obligations.RendererIsOddAndSilentAtMidScaleAndEdges : Prop :=
  (∀ (peak fade level i : Nat) (F G : LineFrame), i < 320 → (∀ k, k < 312 → F.entry k ≤ 224) →
    (∀ k, k < 312 → G.entry k = 224 - F.entry k) →
    steadySample peak fade level G i = - steadySample peak fade level F i) ∧
  (∀ (peak fade level i : Nat), i < 320 → steadySample peak fade level (Vector.replicate 312 112) i = 0 ∧
    tapeUnsmoothed peak level (Vector.replicate 312 112) i = 0) ∧
  (∀ (peak level i : Nat) (q : Int), i < 320 →
    tapeSample peak level (Vector.replicate 312 112) q i = if i = 0 then Int.tdiv q 2 else 0) ∧
  (∀ (peak fade level : Nat) (F : LineFrame), 1 ≤ fade → fade ≤ 160 →
    steadySample peak fade level F 0 = 0 ∧ steadySample peak fade level F 319 = 0)

/-- `SUBMIT` hands the active buffer's 320 samples to the sink and to the output, and changes nothing else but the position
(R194, decision D15). -/
def Obligations.SubmitHandsOverTheActiveBuffer : Prop :=
  ∀ s : State, s.MayIssue .a → s.aud.aph = .submit →
    exec .submit s = .next { s with
      snk.sq := s.snk.sq ++ [s.aud.pcm[s.aud.ab]], snk.out := s.snk.out ++ [s.aud.pcm[s.aud.ab]], aud.aph := .wait }

/-- `WAIT` passes if the sink holds at most one frame; else it is held: the block does not change and `WAIT` stays the audio
context's next operation, unless nobody else has anything left to issue: then the run is stuck (R195, R220 c; decisions
D15, D37). That a held `WAIT` answers a next state, where U13 gives it no successor, and the fault's form are the model's
(notes/assumptions/20.md), and so is that it stands on the work list of the audio context, one issued on its own too
(notes/assumptions/35.md). -/
def Obligations.WaitPassesHoldsOrIsStuck : Prop :=
  ∀ s : State, s.MayIssue .a → s.aud.aph = .wait →
    (s.snk.sq.length ≤ 1 → exec .wait s = .next { s with aud.aph := .flip }) ∧
    (2 ≤ s.snk.sq.length → s.othersPending = true →
      exec .wait s = .next { s with env.aWork := .op .wait :: s.env.aWork }) ∧
    (2 ≤ s.snk.sq.length → s.othersPending = false → exec .wait s = .fault .stuck)

/-- `FLIP` makes the other buffer the active one and starts the next period; nothing else changes (R197). -/
def Obligations.FlipChangesTheActiveBuffer : Prop :=
  ∀ s : State, s.MayIssue .a → s.aud.aph = .flip →
    ∃ b : Fin 2, b ≠ s.aud.ab ∧ exec .flip s = .next { s with aud.ab := b, aud.aph := .take }

/-- `APERIOD` sets its five operations to be carried out next and changes nothing else (R198, R104; decisions D1, D15; that
the step only sets the parts is the model's, notes/assumptions/4.md). -/
def Obligations.AperiodExpandsToItsOperations : Prop :=
  ∀ s : State, s.MayIssue .a → s.aud.aph = .take →
    exec .aperiod s = .next { s with
      env.aWork := [.op .take, .op .render, .op .submit, .op .wait, .op .flip] ++ s.env.aWork }

/-- A whole period of the audio context, carried out by `A` alone with an idle sink: the frame submitted is what `RENDER`
makes of the mailbox frame, silence if there was none; it is in the output and in the sink's queue; the buffers have changed
places and the mailbox is no longer ready (R198, R200; decision D15; that the period takes six turns, the first only setting
its parts, is the model's, notes/assumptions/4.md, and so is the formula for a tape frame at a tape level of 0 with a carry,
which R192 calls silence, notes/assumptions/39.md). With a frame in the sink at the start the `WAIT` is held until the sink
finishes it: `Obligations.WaitPassesHoldsOrIsStuck`. -/
def Obligations.AudioPeriodRunsToItsEnd : Prop :=
  ∀ (s : State) (cs : List Cmd),
    s.cpu.run = none → s.err.fault = false → s.aud.aph = .take → s.snk.sq = [] → s.env.aWork = [] →
    s.env.cmds.a = encode .aperiod :: cs →
    ∃ t f, runAs (List.replicate 6 .a) s = .next t ∧
      (s.mbx.ready = false → f = silence) ∧
      (s.mbx.ready = true → s.mbx.src = .beeper → f = renderSteady Config.peak Config.fade s.aud.vol s.mbx.mb) ∧
      (s.mbx.ready = true → s.mbx.src = .tape →
        f = renderTape Config.peak (s.aud.vol - 2) s.mbx.mb s.aud.sprev) ∧
      t.snk.out = s.snk.out ++ [f] ∧ t.snk.sq = [f] ∧ t.aud.aph = .take ∧ t.aud.ab ≠ s.aud.ab ∧
      t.aud.pcm = s.aud.pcm.set s.aud.ab f ∧ t.aud.vol = s.aud.vol ∧ t.mbx = { s.mbx with ready := false } ∧
      t.lat = s.lat ∧ t.frm = s.frm ∧ t.err = s.err ∧ t.tap = s.tap ∧ t.env.aWork = [] ∧ t.env.cmds.a = cs

/-- `SINKDONE` takes the frame being played, the oldest, off the sink's queue and changes nothing else (R196, decision
D15). -/
def Obligations.SinkdoneFinishesTheOldestFrame : Prop :=
  ∀ (s : State) (f : PcmFrame) (fs : List PcmFrame), s.MayIssue .s → s.snk.sq = f :: fs →
    exec .sinkdone s = .next { s with snk.sq := fs }

/-! ### System operations (spec/44_system_ops.md) -/

/-- `PRESET` issued by the host, in every state, gives every element its reset value, empties the outputs, resets the CPU
unit and starts both contexts over (R215, R256, R246; the values are the spec's decision D27; border, `DIAG` and the CPU
registers are free values, notes/assumptions/9.md to 11.md). That it ends composites and a run in progress and keeps the
commands and the records is the model's reading (notes/assumptions/16.md), and so is that a held `WAIT` is
dropped (notes/assumptions/35.md). -/
def Obligations.PresetGivesEveryResetValue : Prop :=
  ∀ s : State, s.env.issuer = .h → ∃ t, exec .preset s = .next t ∧
    t.lat.beep = false ∧ t.lat.ear = false ∧ t.frm.line = 0 ∧ t.frm.dur = 0 ∧ t.frm.seen = false ∧
    t.frm.acc = Vector.replicate 312 0 ∧ t.frm.fcyc = 0 ∧ t.frm.diagValid = false ∧ t.err.fault = false ∧
    t.err.fcode = .none ∧ t.err.terr = .none ∧ t.mbx.mb = Vector.replicate 312 0 ∧ t.mbx.ready = false ∧
    t.mbx.src = .beeper ∧ t.aud.vol = Config.volReset ∧ t.aud.cur = Vector.replicate 312 0 ∧
    t.aud.curSrc = .beeper ∧ t.aud.curValid = false ∧ t.aud.pcm = Vector.replicate 2 (Vector.replicate 320 0) ∧
    t.aud.ab = 0 ∧ t.aud.sprev = 0 ∧ t.aud.aph = .take ∧ t.tap.timg = [] ∧ t.tlen = 0 ∧ t.tap.tblk = [] ∧
    t.tap.tst = .idle ∧ t.tap.tbi = 0 ∧ t.tap.tpi = 0 ∧ t.tap.tphase = 0 ∧ t.tap.tln = 0 ∧
    t.tap.tacc = Vector.replicate 312 0 ∧ t.tap.tfr = 0 ∧ t.tap.tdone = 0 ∧ t.snk.sq = [] ∧ t.snk.out = [] ∧
    t.snk.rlog = [] ∧ t.cpu.run = none ∧ t.log = { s.log with calls := s.log.calls ++ [.reset] } ∧
    t.env.pWork = [] ∧ t.env.aWork = [] ∧ t.env.cmds = s.env.cmds

/-- `MRESET` with no load in progress resets the latches and the frame scheduler's position, calls `Cpu.reset`, and leaves
everything else of the block (R216, R52; decisions D27, D34; the border is a free value, notes/assumptions/10.md). -/
def Obligations.MresetTouchesOnlyTheMachine : Prop :=
  ∀ s : State, s.MayIssue .p → s.tap.tst = .idle → ∃ t, exec .mreset s = .next t ∧
    t.lat.beep = false ∧ t.lat.ear = false ∧
    t.frm = { s.frm with line := 0, dur := 0, seen := false, fcyc := 0 } ∧
    t.err = s.err ∧ t.mbx = s.mbx ∧ t.aud = s.aud ∧ t.tap = s.tap ∧ t.snk = s.snk ∧ t.cpu.run = s.cpu.run ∧
    t.log = { s.log with calls := s.log.calls ++ [.reset] } ∧ t.env.pWork = s.env.pWork ∧
    t.env.aWork = s.env.aWork ∧ t.env.cmds = s.env.cmds

/-- `LASTERR` issued by the host, in every state, returns the fault code under `FAULT` = 1, else the code of the last load,
and changes nothing (R217, decision D26). -/
def Obligations.LasterrReturnsTheCode : Prop :=
  ∀ s : State, s.env.issuer = .h → exec .lasterr s = .next { s with
    log.returns := s.log.returns ++ [(.h, .code (if s.err.fault then s.err.fcode else s.err.terr))] }

/-! ### Rules of the whole machine -/

/-- Every step keeps the invariants of R53 (an inference the spec marks as its own), in every state that has them, whichever
agent moves. -/
def Obligations.StepKeepsTheInvariant : Prop :=
  (∀ s t : State, s.Inv → step s = .next t → t.Inv) ∧
  (∀ (g : Agent) (s t : State), s.Inv → stepAs g s = .next t → t.Inv)

/-- The reset state has the invariants of R53. -/
def Obligations.ResetHasTheInvariant : Prop := State.reset.Inv

/-- No scanline is skipped or repeated: a step leaves `LINE`, moves it on by one, or starts a frame over, the last only by
`EOF`, `MRESET` or `PRESET` (R24, R125; decision D5). -/
def Obligations.ScanlinesFollowInOrder : Prop :=
  ∀ s t : State, s.cpu.run = none → step s = .next t →
    t.frm.line = s.frm.line ∨
    (t.frm.line = s.frm.line + 1 ∧ ∃ en, s.fetch.1 = .op (.line en)) ∨
    (t.frm.line = 0 ∧ (s.fetch.1 = .op .eof ∨ s.fetch.1 = .op .mreset ∨ s.fetch.1 = .op .preset))

/-- The buffer in flight is written by no step but `PRESET` (R37, R199 b, R263). -/
def Obligations.NoStepWritesTheBufferInFlight : Prop :=
  ∀ s t : State, step s = .next t → s.fetch.1 ≠ .op .preset →
    t.aud.pcm[1 - s.aud.ab] = s.aud.pcm[1 - s.aud.ab]

/-- The mailbox is written by `POST`, a tape frame completion, `TAKE` and `PRESET` alone: any step but a chunk of a pulse
leaves it as the operation it executes says (R32, R33, R34, R67, R69). -/
def Obligations.OnlyPostsAndTakesTouchTheMailbox : Prop :=
  ∀ s t : State, s.cpu.run = none → step s = .next t →
    t.mbx = s.mbx ∨ s.fetch.1 = .op .post ∨ s.fetch.1 = .op .take ∨ s.fetch.1 = .op .preset ∨
    ((∃ n, s.fetch.1 = .task (.chunk n)) ∧ s.tap.tln = 311 ∧ t.mbx.ready = true ∧ t.mbx.src = .tape)

/-- The interrupt request goes to the CPU unit at the end of a frame alone: by `EOF`, or by the chunk that ends the 312th
tape line, always with the one vector and at most once a step (R233, R235). -/
def Obligations.InterruptRequestsComeAtFrameEndsAlone : Prop :=
  ∀ s t : State, s.cpu.run = none → step s = .next t →
    (∀ v, .interrupt v ∉ t.log.calls.drop s.log.calls.length) ∨
    ((s.fetch.1 = .op .eof ∨ ∃ n, s.fetch.1 = .task (.chunk n) ∧ s.tap.tln = 311) ∧
      ∃ before, (∀ v, .interrupt v ∉ before) ∧
        t.log.calls = s.log.calls ++ before ++ [.interrupt Config.intVector])

/-- The volume is changed by `SETVOL` and `PRESET` alone, and the output list never loses a frame but by `PRESET` (R35, R41,
R71). -/
def Obligations.VolumeAndOutputKeepTheirWriters : Prop :=
  ∀ s t : State, step s = .next t → s.fetch.1 ≠ .op .preset →
    (t.aud.vol = s.aud.vol ∨ ∃ level, s.fetch.1 = .op (.setvol level)) ∧ ∃ fs, t.snk.out = s.snk.out ++ fs
end

