-- ==== Sys2Proof/Laws/Decode.lean ====
section
/-!
SUPPORT. The fields of a command word, and that a word is made of its fields.
-/
namespace Sys2Proof

theorem fields_op (op : BitVec 8) (a : BitVec 16) (b : BitVec 8) : (fields op a b).extractLsb' 24 8 = op := by
  apply BitVec.eq_of_getLsbD_eq; intro i hi
  simp only [fields, BitVec.getLsbD_extractLsb', BitVec.getLsbD_append, hi, decide_true, Bool.true_and]
  simp [show ¬ 24 + i < 8 by omega, show ¬ 24 + i - 8 < 16 by omega, show 24 + i - 8 - 16 = i by omega]

theorem fields_a (op : BitVec 8) (a : BitVec 16) (b : BitVec 8) : (fields op a b).extractLsb' 8 16 = a := by
  apply BitVec.eq_of_getLsbD_eq; intro i hi
  simp only [fields, BitVec.getLsbD_extractLsb', BitVec.getLsbD_append, hi, decide_true, Bool.true_and]
  simp [show ¬ 8 + i < 8 by omega, show 8 + i - 8 = i by omega, hi]

theorem fields_b (op : BitVec 8) (a : BitVec 16) (b : BitVec 8) : (fields op a b).extractLsb' 0 8 = b := by
  apply BitVec.eq_of_getLsbD_eq; intro i hi
  simp only [fields, BitVec.getLsbD_extractLsb', BitVec.getLsbD_append, hi, decide_true, Bool.true_and]
  simp [hi]

@[simp] theorem cmd_fields_op (op : BitVec 8) (a : BitVec 16) (b : BitVec 8) (img : List Byte) :
    Cmd.op ⟨fields op a b, img⟩ = op := fields_op op a b

@[simp] theorem cmd_fields_a (op : BitVec 8) (a : BitVec 16) (b : BitVec 8) (img : List Byte) :
    Cmd.a ⟨fields op a b, img⟩ = a := fields_a op a b

@[simp] theorem cmd_fields_b (op : BitVec 8) (a : BitVec 16) (b : BitVec 8) (img : List Byte) :
    Cmd.b ⟨fields op a b, img⟩ = b := fields_b op a b

/-- A word is the word of its three fields (rule R85). -/
theorem word_eq_fields (c : Cmd) : c.word = fields c.op c.a c.b := by
  apply BitVec.eq_of_getLsbD_eq; intro i hi
  simp only [fields, Cmd.op, Cmd.a, Cmd.b, BitVec.getLsbD_append, BitVec.getLsbD_extractLsb']
  split
  · next h => simp [h]
  · next h =>
    split
    · next h2 => simp [h2, show 8 + (i - 8) = i by omega]
    · next h2 => simp [show i - 8 - 16 < 8 by omega, show 24 + (i - 8 - 16) = i by omega]

end Sys2Proof
end

