-- ==== Sys2Proof/Laws/State.lean ====
section
/-!
SUPPORT. What each named operation on the state leaves as it was, group by group, and what it writes.
-/
namespace Sys2Proof.Machine

variable (s : State)

@[simp] theorem State.refuse_lat (c : Cmd) (w : Why) : (s.refuse c w).lat = (s).lat := rfl
@[simp] theorem State.refuse_frm (c : Cmd) (w : Why) : (s.refuse c w).frm = (s).frm := rfl
@[simp] theorem State.refuse_err (c : Cmd) (w : Why) : (s.refuse c w).err = (s).err := rfl
@[simp] theorem State.refuse_mbx (c : Cmd) (w : Why) : (s.refuse c w).mbx = (s).mbx := rfl
@[simp] theorem State.refuse_aud (c : Cmd) (w : Why) : (s.refuse c w).aud = (s).aud := rfl
@[simp] theorem State.refuse_tap (c : Cmd) (w : Why) : (s.refuse c w).tap = (s).tap := rfl
@[simp] theorem State.refuse_snk (c : Cmd) (w : Why) : (s.refuse c w).snk = (s).snk := rfl
@[simp] theorem State.refuse_cpu (c : Cmd) (w : Why) : (s.refuse c w).cpu = (s).cpu := rfl

@[simp] theorem State.giveBack_lat (x : Answer) : (s.giveBack x).lat = (s).lat := rfl
@[simp] theorem State.giveBack_frm (x : Answer) : (s.giveBack x).frm = (s).frm := rfl
@[simp] theorem State.giveBack_err (x : Answer) : (s.giveBack x).err = (s).err := rfl
@[simp] theorem State.giveBack_mbx (x : Answer) : (s.giveBack x).mbx = (s).mbx := rfl
@[simp] theorem State.giveBack_aud (x : Answer) : (s.giveBack x).aud = (s).aud := rfl
@[simp] theorem State.giveBack_tap (x : Answer) : (s.giveBack x).tap = (s).tap := rfl
@[simp] theorem State.giveBack_snk (x : Answer) : (s.giveBack x).snk = (s).snk := rfl
@[simp] theorem State.giveBack_cpu (x : Answer) : (s.giveBack x).cpu = (s).cpu := rfl
@[simp] theorem State.giveBack_env (x : Answer) : (s.giveBack x).env = (s).env := rfl

@[simp] theorem State.drawRun_lat : ((s.drawRun).2).lat = (s).lat := by unfold State.drawRun; split <;> rfl
@[simp] theorem State.drawRun_frm : ((s.drawRun).2).frm = (s).frm := by unfold State.drawRun; split <;> rfl
@[simp] theorem State.drawRun_err : ((s.drawRun).2).err = (s).err := by unfold State.drawRun; split <;> rfl
@[simp] theorem State.drawRun_mbx : ((s.drawRun).2).mbx = (s).mbx := by unfold State.drawRun; split <;> rfl
@[simp] theorem State.drawRun_aud : ((s.drawRun).2).aud = (s).aud := by unfold State.drawRun; split <;> rfl
@[simp] theorem State.drawRun_tap : ((s.drawRun).2).tap = (s).tap := by unfold State.drawRun; split <;> rfl
@[simp] theorem State.drawRun_snk : ((s.drawRun).2).snk = (s).snk := by unfold State.drawRun; split <;> rfl
@[simp] theorem State.drawRun_cpu : ((s.drawRun).2).cpu = (s).cpu := by unfold State.drawRun; split <;> rfl
@[simp] theorem State.drawRun_log : ((s.drawRun).2).log = (s).log := by unfold State.drawRun; split <;> rfl

@[simp] theorem State.drawRegs_lat : ((s.drawRegs).2).lat = (s).lat := by unfold State.drawRegs; split <;> rfl
@[simp] theorem State.drawRegs_frm : ((s.drawRegs).2).frm = (s).frm := by unfold State.drawRegs; split <;> rfl
@[simp] theorem State.drawRegs_err : ((s.drawRegs).2).err = (s).err := by unfold State.drawRegs; split <;> rfl
@[simp] theorem State.drawRegs_mbx : ((s.drawRegs).2).mbx = (s).mbx := by unfold State.drawRegs; split <;> rfl
@[simp] theorem State.drawRegs_aud : ((s.drawRegs).2).aud = (s).aud := by unfold State.drawRegs; split <;> rfl
@[simp] theorem State.drawRegs_tap : ((s.drawRegs).2).tap = (s).tap := by unfold State.drawRegs; split <;> rfl
@[simp] theorem State.drawRegs_snk : ((s.drawRegs).2).snk = (s).snk := by unfold State.drawRegs; split <;> rfl
@[simp] theorem State.drawRegs_cpu : ((s.drawRegs).2).cpu = (s).cpu := by unfold State.drawRegs; split <;> rfl
@[simp] theorem State.drawRegs_log : ((s.drawRegs).2).log = (s).log := by unfold State.drawRegs; split <;> rfl

@[simp] theorem State.drawRead_lat (hi : Byte) : ((s.drawRead hi).2).lat = (s).lat := by unfold State.drawRead; split <;> rfl
@[simp] theorem State.drawRead_frm (hi : Byte) : ((s.drawRead hi).2).frm = (s).frm := by unfold State.drawRead; split <;> rfl
@[simp] theorem State.drawRead_err (hi : Byte) : ((s.drawRead hi).2).err = (s).err := by unfold State.drawRead; split <;> rfl
@[simp] theorem State.drawRead_mbx (hi : Byte) : ((s.drawRead hi).2).mbx = (s).mbx := by unfold State.drawRead; split <;> rfl
@[simp] theorem State.drawRead_aud (hi : Byte) : ((s.drawRead hi).2).aud = (s).aud := by unfold State.drawRead; split <;> rfl
@[simp] theorem State.drawRead_tap (hi : Byte) : ((s.drawRead hi).2).tap = (s).tap := by unfold State.drawRead; split <;> rfl
@[simp] theorem State.drawRead_snk (hi : Byte) : ((s.drawRead hi).2).snk = (s).snk := by unfold State.drawRead; split <;> rfl
@[simp] theorem State.drawRead_cpu (hi : Byte) : ((s.drawRead hi).2).cpu = (s).cpu := by unfold State.drawRead; split <;> rfl
@[simp] theorem State.drawRead_log (hi : Byte) : ((s.drawRead hi).2).log = (s).log := by unfold State.drawRead; split <;> rfl

@[simp] theorem State.drawAlloc_lat : ((s.drawAlloc).2).lat = (s).lat := by unfold State.drawAlloc; split <;> rfl
@[simp] theorem State.drawAlloc_frm : ((s.drawAlloc).2).frm = (s).frm := by unfold State.drawAlloc; split <;> rfl
@[simp] theorem State.drawAlloc_err : ((s.drawAlloc).2).err = (s).err := by unfold State.drawAlloc; split <;> rfl
@[simp] theorem State.drawAlloc_mbx : ((s.drawAlloc).2).mbx = (s).mbx := by unfold State.drawAlloc; split <;> rfl
@[simp] theorem State.drawAlloc_aud : ((s.drawAlloc).2).aud = (s).aud := by unfold State.drawAlloc; split <;> rfl
@[simp] theorem State.drawAlloc_tap : ((s.drawAlloc).2).tap = (s).tap := by unfold State.drawAlloc; split <;> rfl
@[simp] theorem State.drawAlloc_snk : ((s.drawAlloc).2).snk = (s).snk := by unfold State.drawAlloc; split <;> rfl
@[simp] theorem State.drawAlloc_cpu : ((s.drawAlloc).2).cpu = (s).cpu := by unfold State.drawAlloc; split <;> rfl
@[simp] theorem State.drawAlloc_log : ((s.drawAlloc).2).log = (s).log := by unfold State.drawAlloc; split <;> rfl

@[simp] theorem State.drawAgent_lat : ((s.drawAgent).2).lat = (s).lat := by unfold State.drawAgent; split <;> rfl
@[simp] theorem State.drawAgent_frm : ((s.drawAgent).2).frm = (s).frm := by unfold State.drawAgent; split <;> rfl
@[simp] theorem State.drawAgent_err : ((s.drawAgent).2).err = (s).err := by unfold State.drawAgent; split <;> rfl
@[simp] theorem State.drawAgent_mbx : ((s.drawAgent).2).mbx = (s).mbx := by unfold State.drawAgent; split <;> rfl
@[simp] theorem State.drawAgent_aud : ((s.drawAgent).2).aud = (s).aud := by unfold State.drawAgent; split <;> rfl
@[simp] theorem State.drawAgent_tap : ((s.drawAgent).2).tap = (s).tap := by unfold State.drawAgent; split <;> rfl
@[simp] theorem State.drawAgent_snk : ((s.drawAgent).2).snk = (s).snk := by unfold State.drawAgent; split <;> rfl
@[simp] theorem State.drawAgent_cpu : ((s.drawAgent).2).cpu = (s).cpu := by unfold State.drawAgent; split <;> rfl
@[simp] theorem State.drawAgent_log : ((s.drawAgent).2).log = (s).log := by unfold State.drawAgent; split <;> rfl

@[simp] theorem State.freeBorder_frm : (s.freeBorder).frm = (s).frm := rfl
@[simp] theorem State.freeBorder_err : (s.freeBorder).err = (s).err := rfl
@[simp] theorem State.freeBorder_mbx : (s.freeBorder).mbx = (s).mbx := rfl
@[simp] theorem State.freeBorder_aud : (s.freeBorder).aud = (s).aud := rfl
@[simp] theorem State.freeBorder_tap : (s.freeBorder).tap = (s).tap := rfl
@[simp] theorem State.freeBorder_snk : (s.freeBorder).snk = (s).snk := rfl
@[simp] theorem State.freeBorder_cpu : (s.freeBorder).cpu = (s).cpu := rfl
@[simp] theorem State.freeBorder_log : (s.freeBorder).log = (s).log := rfl

@[simp] theorem State.cpuReset_lat : (s.cpuReset).lat = (s).lat := by simp [State.cpuReset]
@[simp] theorem State.cpuReset_frm : (s.cpuReset).frm = (s).frm := by simp [State.cpuReset]
@[simp] theorem State.cpuReset_err : (s.cpuReset).err = (s).err := by simp [State.cpuReset]
@[simp] theorem State.cpuReset_mbx : (s.cpuReset).mbx = (s).mbx := by simp [State.cpuReset]
@[simp] theorem State.cpuReset_aud : (s.cpuReset).aud = (s).aud := by simp [State.cpuReset]
@[simp] theorem State.cpuReset_tap : (s.cpuReset).tap = (s).tap := by simp [State.cpuReset]
@[simp] theorem State.cpuReset_snk : (s.cpuReset).snk = (s).snk := by simp [State.cpuReset]

@[simp] theorem State.cpuInterrupt_lat : (s.cpuInterrupt).lat = (s).lat := by simp [State.cpuInterrupt]
@[simp] theorem State.cpuInterrupt_frm : (s.cpuInterrupt).frm = (s).frm := by simp [State.cpuInterrupt]
@[simp] theorem State.cpuInterrupt_err : (s.cpuInterrupt).err = (s).err := by simp [State.cpuInterrupt]
@[simp] theorem State.cpuInterrupt_mbx : (s.cpuInterrupt).mbx = (s).mbx := by simp [State.cpuInterrupt]
@[simp] theorem State.cpuInterrupt_aud : (s.cpuInterrupt).aud = (s).aud := by simp [State.cpuInterrupt]
@[simp] theorem State.cpuInterrupt_tap : (s.cpuInterrupt).tap = (s).tap := by simp [State.cpuInterrupt]
@[simp] theorem State.cpuInterrupt_snk : (s.cpuInterrupt).snk = (s).snk := by simp [State.cpuInterrupt]

@[simp] theorem State.frameInterrupt_lat : (s.frameInterrupt).lat = (s).lat := by unfold State.frameInterrupt; split <;> simp
@[simp] theorem State.frameInterrupt_frm : (s.frameInterrupt).frm = (s).frm := by unfold State.frameInterrupt; split <;> simp
@[simp] theorem State.frameInterrupt_err : (s.frameInterrupt).err = (s).err := by unfold State.frameInterrupt; split <;> simp
@[simp] theorem State.frameInterrupt_mbx : (s.frameInterrupt).mbx = (s).mbx := by unfold State.frameInterrupt; split <;> simp
@[simp] theorem State.frameInterrupt_aud : (s.frameInterrupt).aud = (s).aud := by unfold State.frameInterrupt; split <;> simp
@[simp] theorem State.frameInterrupt_tap : (s.frameInterrupt).tap = (s).tap := by unfold State.frameInterrupt; split <;> simp
@[simp] theorem State.frameInterrupt_snk : (s.frameInterrupt).snk = (s).snk := by unfold State.frameInterrupt; split <;> simp

@[simp] theorem State.raise_lat (f : ErrCode) : (s.raise f).lat = (s).lat := rfl
@[simp] theorem State.raise_frm (f : ErrCode) : (s.raise f).frm = (s).frm := rfl
@[simp] theorem State.raise_mbx (f : ErrCode) : (s.raise f).mbx = (s).mbx := rfl
@[simp] theorem State.raise_aud (f : ErrCode) : (s.raise f).aud = (s).aud := rfl
@[simp] theorem State.raise_tap (f : ErrCode) : (s.raise f).tap = (s).tap := rfl
@[simp] theorem State.raise_snk (f : ErrCode) : (s.raise f).snk = (s).snk := rfl
@[simp] theorem State.raise_cpu (f : ErrCode) : (s.raise f).cpu = (s).cpu := rfl

@[simp] theorem State.machineReset_err : (s.machineReset).err = (s).err := by simp [State.machineReset]
@[simp] theorem State.machineReset_mbx : (s.machineReset).mbx = (s).mbx := by simp [State.machineReset]
@[simp] theorem State.machineReset_aud : (s.machineReset).aud = (s).aud := by simp [State.machineReset]
@[simp] theorem State.machineReset_tap : (s.machineReset).tap = (s).tap := by simp [State.machineReset]
@[simp] theorem State.machineReset_snk : (s.machineReset).snk = (s).snk := by simp [State.machineReset]

@[simp] theorem State.portWrite_err (port : BitVec 16) (data : Byte) : (s.portWrite port data).err = (s).err := by unfold State.portWrite; split <;> rfl
@[simp] theorem State.portWrite_mbx (port : BitVec 16) (data : Byte) : (s.portWrite port data).mbx = (s).mbx := by unfold State.portWrite; split <;> rfl
@[simp] theorem State.portWrite_aud (port : BitVec 16) (data : Byte) : (s.portWrite port data).aud = (s).aud := by unfold State.portWrite; split <;> rfl
@[simp] theorem State.portWrite_tap (port : BitVec 16) (data : Byte) : (s.portWrite port data).tap = (s).tap := by unfold State.portWrite; split <;> rfl
@[simp] theorem State.portWrite_snk (port : BitVec 16) (data : Byte) : (s.portWrite port data).snk = (s).snk := by unfold State.portWrite; split <;> rfl
@[simp] theorem State.portWrite_cpu (port : BitVec 16) (data : Byte) : (s.portWrite port data).cpu = (s).cpu := by unfold State.portWrite; split <;> rfl
@[simp] theorem State.portWrite_log (port : BitVec 16) (data : Byte) : (s.portWrite port data).log = (s).log := by unfold State.portWrite; split <;> rfl
@[simp] theorem State.portWrite_env (port : BitVec 16) (data : Byte) : (s.portWrite port data).env = (s).env := by unfold State.portWrite; split <;> rfl

@[simp] theorem State.portRead_lat (port : BitVec 16) : (s.portRead port).lat = (s).lat := by unfold State.portRead; split <;> simp
@[simp] theorem State.portRead_frm (port : BitVec 16) : (s.portRead port).frm = (s).frm := by unfold State.portRead; split <;> simp
@[simp] theorem State.portRead_err (port : BitVec 16) : (s.portRead port).err = (s).err := by unfold State.portRead; split <;> simp
@[simp] theorem State.portRead_mbx (port : BitVec 16) : (s.portRead port).mbx = (s).mbx := by unfold State.portRead; split <;> simp
@[simp] theorem State.portRead_aud (port : BitVec 16) : (s.portRead port).aud = (s).aud := by unfold State.portRead; split <;> simp
@[simp] theorem State.portRead_tap (port : BitVec 16) : (s.portRead port).tap = (s).tap := by unfold State.portRead; split <;> simp
@[simp] theorem State.portRead_snk (port : BitVec 16) : (s.portRead port).snk = (s).snk := by unfold State.portRead; split <;> simp
@[simp] theorem State.portRead_cpu (port : BitVec 16) : (s.portRead port).cpu = (s).cpu := by unfold State.portRead; split <;> simp

@[simp] theorem State.postFrame_lat (F : LineFrame) (src : Source) : (s.postFrame F src).lat = (s).lat := rfl
@[simp] theorem State.postFrame_frm (F : LineFrame) (src : Source) : (s.postFrame F src).frm = (s).frm := rfl
@[simp] theorem State.postFrame_err (F : LineFrame) (src : Source) : (s.postFrame F src).err = (s).err := rfl
@[simp] theorem State.postFrame_aud (F : LineFrame) (src : Source) : (s.postFrame F src).aud = (s).aud := rfl
@[simp] theorem State.postFrame_tap (F : LineFrame) (src : Source) : (s.postFrame F src).tap = (s).tap := rfl
@[simp] theorem State.postFrame_snk (F : LineFrame) (src : Source) : (s.postFrame F src).snk = (s).snk := rfl
@[simp] theorem State.postFrame_cpu (F : LineFrame) (src : Source) : (s.postFrame F src).cpu = (s).cpu := rfl
@[simp] theorem State.postFrame_log (F : LineFrame) (src : Source) : (s.postFrame F src).log = (s).log := rfl
@[simp] theorem State.postFrame_env (F : LineFrame) (src : Source) : (s.postFrame F src).env = (s).env := rfl

@[simp] theorem State.refresh_lat : (s.refresh).lat = (s).lat := rfl
@[simp] theorem State.refresh_frm : (s.refresh).frm = (s).frm := rfl
@[simp] theorem State.refresh_err : (s.refresh).err = (s).err := rfl
@[simp] theorem State.refresh_mbx : (s.refresh).mbx = (s).mbx := rfl
@[simp] theorem State.refresh_aud : (s.refresh).aud = (s).aud := rfl
@[simp] theorem State.refresh_tap : (s.refresh).tap = (s).tap := rfl
@[simp] theorem State.refresh_cpu : (s.refresh).cpu = (s).cpu := rfl
@[simp] theorem State.refresh_log : (s.refresh).log = (s).log := rfl
@[simp] theorem State.refresh_env : (s.refresh).env = (s).env := rfl

@[simp] theorem State.throttledRefresh_lat : (s.throttledRefresh).lat = (s).lat := by unfold State.throttledRefresh; split <;> simp
@[simp] theorem State.throttledRefresh_frm : (s.throttledRefresh).frm = (s).frm := by unfold State.throttledRefresh; split <;> simp
@[simp] theorem State.throttledRefresh_err : (s.throttledRefresh).err = (s).err := by unfold State.throttledRefresh; split <;> simp
@[simp] theorem State.throttledRefresh_mbx : (s.throttledRefresh).mbx = (s).mbx := by unfold State.throttledRefresh; split <;> simp
@[simp] theorem State.throttledRefresh_aud : (s.throttledRefresh).aud = (s).aud := by unfold State.throttledRefresh; split <;> simp
@[simp] theorem State.throttledRefresh_tap : (s.throttledRefresh).tap = (s).tap := by unfold State.throttledRefresh; split <;> simp
@[simp] theorem State.throttledRefresh_cpu : (s.throttledRefresh).cpu = (s).cpu := by unfold State.throttledRefresh; split <;> simp
@[simp] theorem State.throttledRefresh_log : (s.throttledRefresh).log = (s).log := by unfold State.throttledRefresh; split <;> simp
@[simp] theorem State.throttledRefresh_env : (s.throttledRefresh).env = (s).env := by unfold State.throttledRefresh; split <;> simp

@[simp] theorem State.completeFrame_lat : (s.completeFrame).lat = (s).lat := by simp [State.completeFrame]
@[simp] theorem State.completeFrame_frm : (s.completeFrame).frm = (s).frm := by simp [State.completeFrame]
@[simp] theorem State.completeFrame_err : (s.completeFrame).err = (s).err := by simp [State.completeFrame]
@[simp] theorem State.completeFrame_aud : (s.completeFrame).aud = (s).aud := by simp [State.completeFrame]

@[simp] theorem State.emitLine_lat : (s.emitLine).lat = (s).lat := by unfold State.emitLine; dsimp only; split <;> simp
@[simp] theorem State.emitLine_frm : (s.emitLine).frm = (s).frm := by unfold State.emitLine; dsimp only; split <;> simp
@[simp] theorem State.emitLine_err : (s.emitLine).err = (s).err := by unfold State.emitLine; dsimp only; split <;> simp
@[simp] theorem State.emitLine_aud : (s.emitLine).aud = (s).aud := by unfold State.emitLine; dsimp only; split <;> simp

@[simp] theorem State.openRun_lat (n : Nat) (u : RunUser) : (s.openRun n u).lat = (s).lat := by simp [State.openRun]
@[simp] theorem State.openRun_frm (n : Nat) (u : RunUser) : (s.openRun n u).frm = (s).frm := by simp [State.openRun]
@[simp] theorem State.openRun_err (n : Nat) (u : RunUser) : (s.openRun n u).err = (s).err := by simp [State.openRun]
@[simp] theorem State.openRun_mbx (n : Nat) (u : RunUser) : (s.openRun n u).mbx = (s).mbx := by simp [State.openRun]
@[simp] theorem State.openRun_aud (n : Nat) (u : RunUser) : (s.openRun n u).aud = (s).aud := by simp [State.openRun]
@[simp] theorem State.openRun_tap (n : Nat) (u : RunUser) : (s.openRun n u).tap = (s).tap := by simp [State.openRun]
@[simp] theorem State.openRun_snk (n : Nat) (u : RunUser) : (s.openRun n u).snk = (s).snk := by simp [State.openRun]

@[simp] theorem State.popRunOp_lat : (s.popRunOp).lat = (s).lat := rfl
@[simp] theorem State.popRunOp_frm : (s.popRunOp).frm = (s).frm := rfl
@[simp] theorem State.popRunOp_err : (s.popRunOp).err = (s).err := rfl
@[simp] theorem State.popRunOp_mbx : (s.popRunOp).mbx = (s).mbx := rfl
@[simp] theorem State.popRunOp_aud : (s.popRunOp).aud = (s).aud := rfl
@[simp] theorem State.popRunOp_tap : (s.popRunOp).tap = (s).tap := rfl
@[simp] theorem State.popRunOp_snk : (s.popRunOp).snk = (s).snk := rfl
@[simp] theorem State.popRunOp_log : (s.popRunOp).log = (s).log := rfl
@[simp] theorem State.popRunOp_env : (s.popRunOp).env = (s).env := rfl

@[simp] theorem State.lineStore_lat (en : Bool) (n : Nat) : (s.lineStore en n).lat = (s).lat := rfl
@[simp] theorem State.lineStore_err (en : Bool) (n : Nat) : (s.lineStore en n).err = (s).err := rfl
@[simp] theorem State.lineStore_mbx (en : Bool) (n : Nat) : (s.lineStore en n).mbx = (s).mbx := rfl
@[simp] theorem State.lineStore_aud (en : Bool) (n : Nat) : (s.lineStore en n).aud = (s).aud := rfl
@[simp] theorem State.lineStore_tap (en : Bool) (n : Nat) : (s.lineStore en n).tap = (s).tap := rfl
@[simp] theorem State.lineStore_snk (en : Bool) (n : Nat) : (s.lineStore en n).snk = (s).snk := rfl
@[simp] theorem State.lineStore_cpu (en : Bool) (n : Nat) : (s.lineStore en n).cpu = (s).cpu := rfl
@[simp] theorem State.lineStore_log (en : Bool) (n : Nat) : (s.lineStore en n).log = (s).log := rfl
@[simp] theorem State.lineStore_env (en : Bool) (n : Nat) : (s.lineStore en n).env = (s).env := rfl

@[simp] theorem State.chunkStore_lat (rem c : Nat) : (s.chunkStore rem c).lat = (s).lat := by unfold State.chunkStore; dsimp only; split <;> simp
@[simp] theorem State.chunkStore_frm (rem c : Nat) : (s.chunkStore rem c).frm = (s).frm := by unfold State.chunkStore; dsimp only; split <;> simp
@[simp] theorem State.chunkStore_err (rem c : Nat) : (s.chunkStore rem c).err = (s).err := by unfold State.chunkStore; dsimp only; split <;> simp
@[simp] theorem State.chunkStore_aud (rem c : Nat) : (s.chunkStore rem c).aud = (s).aud := by unfold State.chunkStore; dsimp only; split <;> simp

@[simp] theorem State.closeRun_lat (r : Run) : (s.closeRun r).lat = (s).lat := rfl
@[simp] theorem State.closeRun_frm (r : Run) : (s.closeRun r).frm = (s).frm := rfl
@[simp] theorem State.closeRun_err (r : Run) : (s.closeRun r).err = (s).err := rfl
@[simp] theorem State.closeRun_mbx (r : Run) : (s.closeRun r).mbx = (s).mbx := rfl
@[simp] theorem State.closeRun_aud (r : Run) : (s.closeRun r).aud = (s).aud := rfl
@[simp] theorem State.closeRun_tap (r : Run) : (s.closeRun r).tap = (s).tap := rfl
@[simp] theorem State.closeRun_snk (r : Run) : (s.closeRun r).snk = (s).snk := rfl
@[simp] theorem State.closeRun_log (r : Run) : (s.closeRun r).log = (s).log := rfl

@[simp] theorem State.pushP_lat (ts : List Task) : (s.pushP ts).lat = (s).lat := rfl
@[simp] theorem State.pushP_frm (ts : List Task) : (s.pushP ts).frm = (s).frm := rfl
@[simp] theorem State.pushP_err (ts : List Task) : (s.pushP ts).err = (s).err := rfl
@[simp] theorem State.pushP_mbx (ts : List Task) : (s.pushP ts).mbx = (s).mbx := rfl
@[simp] theorem State.pushP_aud (ts : List Task) : (s.pushP ts).aud = (s).aud := rfl
@[simp] theorem State.pushP_tap (ts : List Task) : (s.pushP ts).tap = (s).tap := rfl
@[simp] theorem State.pushP_snk (ts : List Task) : (s.pushP ts).snk = (s).snk := rfl
@[simp] theorem State.pushP_cpu (ts : List Task) : (s.pushP ts).cpu = (s).cpu := rfl
@[simp] theorem State.pushP_log (ts : List Task) : (s.pushP ts).log = (s).log := rfl

@[simp] theorem State.diagCopy_lat : (s.diagCopy).lat = (s).lat := by unfold State.diagCopy; split <;> rfl
@[simp] theorem State.diagCopy_err : (s.diagCopy).err = (s).err := by unfold State.diagCopy; split <;> rfl
@[simp] theorem State.diagCopy_mbx : (s.diagCopy).mbx = (s).mbx := by unfold State.diagCopy; split <;> rfl
@[simp] theorem State.diagCopy_aud : (s.diagCopy).aud = (s).aud := by unfold State.diagCopy; split <;> rfl
@[simp] theorem State.diagCopy_tap : (s.diagCopy).tap = (s).tap := by unfold State.diagCopy; split <;> rfl
@[simp] theorem State.diagCopy_snk : (s.diagCopy).snk = (s).snk := by unfold State.diagCopy; split <;> rfl
@[simp] theorem State.diagCopy_cpu : (s.diagCopy).cpu = (s).cpu := by unfold State.diagCopy; split <;> rfl
@[simp] theorem State.diagCopy_log : (s.diagCopy).log = (s).log := by unfold State.diagCopy; split <;> rfl
@[simp] theorem State.diagCopy_env : (s.diagCopy).env = (s).env := by unfold State.diagCopy; split <;> rfl

@[simp] theorem State.lineStart_lat : (s.lineStart).lat = (s).lat := by simp [State.lineStart]
@[simp] theorem State.lineStart_err : (s.lineStart).err = (s).err := by simp [State.lineStart]
@[simp] theorem State.lineStart_mbx : (s.lineStart).mbx = (s).mbx := by simp [State.lineStart]
@[simp] theorem State.lineStart_aud : (s.lineStart).aud = (s).aud := by simp [State.lineStart]
@[simp] theorem State.lineStart_tap : (s.lineStart).tap = (s).tap := by simp [State.lineStart]
@[simp] theorem State.lineStart_snk : (s.lineStart).snk = (s).snk := by simp [State.lineStart]
@[simp] theorem State.lineStart_cpu : (s.lineStart).cpu = (s).cpu := by simp [State.lineStart]
@[simp] theorem State.lineStart_log : (s.lineStart).log = (s).log := by simp [State.lineStart]
@[simp] theorem State.lineStart_env : (s.lineStart).env = (s).env := by simp [State.lineStart]

@[simp] theorem State.loadFailed_lat (e : ErrCode) : (s.loadFailed e).lat = (s).lat := rfl
@[simp] theorem State.loadFailed_frm (e : ErrCode) : (s.loadFailed e).frm = (s).frm := rfl
@[simp] theorem State.loadFailed_mbx (e : ErrCode) : (s.loadFailed e).mbx = (s).mbx := rfl
@[simp] theorem State.loadFailed_aud (e : ErrCode) : (s.loadFailed e).aud = (s).aud := rfl
@[simp] theorem State.loadFailed_snk (e : ErrCode) : (s.loadFailed e).snk = (s).snk := rfl
@[simp] theorem State.loadFailed_cpu (e : ErrCode) : (s.loadFailed e).cpu = (s).cpu := rfl
@[simp] theorem State.loadFailed_log (e : ErrCode) : (s.loadFailed e).log = (s).log := rfl
@[simp] theorem State.loadFailed_env (e : ErrCode) : (s.loadFailed e).env = (s).env := rfl

@[simp] theorem State.loadTape_lat (img : List Byte) : ((s.loadTape img).2).lat = (s).lat := by unfold State.loadTape; split <;> (try split) <;> simp
@[simp] theorem State.loadTape_frm (img : List Byte) : ((s.loadTape img).2).frm = (s).frm := by unfold State.loadTape; split <;> (try split) <;> simp
@[simp] theorem State.loadTape_mbx (img : List Byte) : ((s.loadTape img).2).mbx = (s).mbx := by unfold State.loadTape; split <;> (try split) <;> simp
@[simp] theorem State.loadTape_aud (img : List Byte) : ((s.loadTape img).2).aud = (s).aud := by unfold State.loadTape; split <;> (try split) <;> simp
@[simp] theorem State.loadTape_snk (img : List Byte) : ((s.loadTape img).2).snk = (s).snk := by unfold State.loadTape; split <;> (try split) <;> simp
@[simp] theorem State.loadTape_cpu (img : List Byte) : ((s.loadTape img).2).cpu = (s).cpu := by unfold State.loadTape; split <;> (try split) <;> simp
@[simp] theorem State.loadTape_log (img : List Byte) : ((s.loadTape img).2).log = (s).log := by unfold State.loadTape; split <;> (try split) <;> simp

@[simp] theorem State.returnLoad_lat (img : List Byte) : (s.returnLoad img).lat = (s.loadTape img).2.lat := rfl
@[simp] theorem State.returnLoad_frm (img : List Byte) : (s.returnLoad img).frm = (s.loadTape img).2.frm := rfl
@[simp] theorem State.returnLoad_err (img : List Byte) : (s.returnLoad img).err = (s.loadTape img).2.err := rfl
@[simp] theorem State.returnLoad_mbx (img : List Byte) : (s.returnLoad img).mbx = (s.loadTape img).2.mbx := rfl
@[simp] theorem State.returnLoad_aud (img : List Byte) : (s.returnLoad img).aud = (s.loadTape img).2.aud := rfl
@[simp] theorem State.returnLoad_tap (img : List Byte) : (s.returnLoad img).tap = (s.loadTape img).2.tap := rfl
@[simp] theorem State.returnLoad_snk (img : List Byte) : (s.returnLoad img).snk = (s.loadTape img).2.snk := rfl
@[simp] theorem State.returnLoad_cpu (img : List Byte) : (s.returnLoad img).cpu = (s.loadTape img).2.cpu := rfl
@[simp] theorem State.returnLoad_env (img : List Byte) : (s.returnLoad img).env = (s.loadTape img).2.env := rfl
@[simp] theorem State.returnLoad_log (img : List Byte) : (s.returnLoad img).log =
    { (s.loadTape img).2.log with returns := (s.loadTape img).2.log.returns ++
        [((s.loadTape img).2.env.issuer, .bool (s.loadTape img).1)] } := rfl

@[simp] theorem State.takeFrame_lat : (s.takeFrame).lat = (s).lat := by unfold State.takeFrame; split <;> rfl
@[simp] theorem State.takeFrame_frm : (s.takeFrame).frm = (s).frm := by unfold State.takeFrame; split <;> rfl
@[simp] theorem State.takeFrame_err : (s.takeFrame).err = (s).err := by unfold State.takeFrame; split <;> rfl
@[simp] theorem State.takeFrame_tap : (s.takeFrame).tap = (s).tap := by unfold State.takeFrame; split <;> rfl
@[simp] theorem State.takeFrame_snk : (s.takeFrame).snk = (s).snk := by unfold State.takeFrame; split <;> rfl
@[simp] theorem State.takeFrame_cpu : (s.takeFrame).cpu = (s).cpu := by unfold State.takeFrame; split <;> rfl
@[simp] theorem State.takeFrame_log : (s.takeFrame).log = (s).log := by unfold State.takeFrame; split <;> rfl
@[simp] theorem State.takeFrame_env : (s.takeFrame).env = (s).env := by unfold State.takeFrame; split <;> rfl

@[simp] theorem State.putWork_lat (g : Agent) (ts : List Task) : (s.putWork g ts).lat = (s).lat := by cases g <;> rfl
@[simp] theorem State.putWork_frm (g : Agent) (ts : List Task) : (s.putWork g ts).frm = (s).frm := by cases g <;> rfl
@[simp] theorem State.putWork_err (g : Agent) (ts : List Task) : (s.putWork g ts).err = (s).err := by cases g <;> rfl
@[simp] theorem State.putWork_mbx (g : Agent) (ts : List Task) : (s.putWork g ts).mbx = (s).mbx := by cases g <;> rfl
@[simp] theorem State.putWork_aud (g : Agent) (ts : List Task) : (s.putWork g ts).aud = (s).aud := by cases g <;> rfl
@[simp] theorem State.putWork_tap (g : Agent) (ts : List Task) : (s.putWork g ts).tap = (s).tap := by cases g <;> rfl
@[simp] theorem State.putWork_snk (g : Agent) (ts : List Task) : (s.putWork g ts).snk = (s).snk := by cases g <;> rfl
@[simp] theorem State.putWork_cpu (g : Agent) (ts : List Task) : (s.putWork g ts).cpu = (s).cpu := by cases g <;> rfl
@[simp] theorem State.putWork_log (g : Agent) (ts : List Task) : (s.putWork g ts).log = (s).log := by cases g <;> rfl

@[simp] theorem State.askKey_lat (x : KeyAction) : (s.askKey x).lat = (s).lat := rfl
@[simp] theorem State.askKey_frm (x : KeyAction) : (s.askKey x).frm = (s).frm := rfl
@[simp] theorem State.askKey_err (x : KeyAction) : (s.askKey x).err = (s).err := rfl
@[simp] theorem State.askKey_mbx (x : KeyAction) : (s.askKey x).mbx = (s).mbx := rfl
@[simp] theorem State.askKey_aud (x : KeyAction) : (s.askKey x).aud = (s).aud := rfl
@[simp] theorem State.askKey_tap (x : KeyAction) : (s.askKey x).tap = (s).tap := rfl
@[simp] theorem State.askKey_snk (x : KeyAction) : (s.askKey x).snk = (s).snk := rfl
@[simp] theorem State.askKey_cpu (x : KeyAction) : (s.askKey x).cpu = (s).cpu := rfl
@[simp] theorem State.askKey_env (x : KeyAction) : (s.askKey x).env = (s).env := rfl

@[simp] theorem State.holdWait_lat : (s.holdWait).lat = (s).lat := rfl
@[simp] theorem State.holdWait_frm : (s.holdWait).frm = (s).frm := rfl
@[simp] theorem State.holdWait_err : (s.holdWait).err = (s).err := rfl
@[simp] theorem State.holdWait_mbx : (s.holdWait).mbx = (s).mbx := rfl
@[simp] theorem State.holdWait_aud : (s.holdWait).aud = (s).aud := rfl
@[simp] theorem State.holdWait_tap : (s.holdWait).tap = (s).tap := rfl
@[simp] theorem State.holdWait_snk : (s.holdWait).snk = (s).snk := rfl
@[simp] theorem State.holdWait_cpu : (s.holdWait).cpu = (s).cpu := rfl
@[simp] theorem State.holdWait_log : (s.holdWait).log = (s).log := rfl

/-! ### What each operation writes -/

@[simp] theorem State.raise_fault (f : ErrCode) : (s.raise f).err.fault = true := rfl
@[simp] theorem State.raise_fcode (f : ErrCode) : (s.raise f).err.fcode = f := rfl
@[simp] theorem State.raise_terr (f : ErrCode) : (s.raise f).err.terr = s.err.terr := rfl
@[simp] theorem State.raise_pWork (f : ErrCode) : (s.raise f).env.pWork = [] := rfl
@[simp] theorem State.postFrame_mbx (F : LineFrame) (src : Source) : (s.postFrame F src).mbx = ⟨F, true, src⟩ := rfl
@[simp] theorem State.pushP_pWork (ts : List Task) : (s.pushP ts).env.pWork = ts ++ s.env.pWork := rfl
@[simp] theorem State.pushP_issuer (ts : List Task) : (s.pushP ts).env.issuer = s.env.issuer := rfl
@[simp] theorem State.giveBack_returns (x : Answer) :
    (s.giveBack x).log.returns = s.log.returns ++ [(s.env.issuer, x)] := rfl
@[simp] theorem State.refuse_refused (c : Cmd) (w : Why) :
    (s.refuse c w).log.refused = s.log.refused ++ [⟨s.env.issuer, c, w⟩] := rfl
@[simp] theorem State.refuse_issuer (c : Cmd) (w : Why) : (s.refuse c w).env.issuer = s.env.issuer := rfl
@[simp] theorem State.lineStore_line (en : Bool) (n : Nat) : (s.lineStore en n).frm.line = s.frm.line + 1 := rfl
@[simp] theorem State.lineStore_fcyc (en : Bool) (n : Nat) : (s.lineStore en n).frm.fcyc = s.frm.fcyc + n := rfl
@[simp] theorem State.closeRun_cpu (r : Run) : (s.closeRun r).cpu = ⟨r.regs, none⟩ := rfl
@[simp] theorem State.closeRun_issuer (r : Run) : (s.closeRun r).env.issuer = .p := rfl
@[simp] theorem State.closeRun_pWork (r : Run) : (s.closeRun r).env.pWork = s.env.pWork := rfl
@[simp] theorem State.diagCopy_line : s.diagCopy.frm.line = s.frm.line := by unfold State.diagCopy; split <;> rfl
@[simp] theorem State.diagCopy_acc : s.diagCopy.frm.acc = s.frm.acc := by unfold State.diagCopy; split <;> rfl
@[simp] theorem State.diagCopy_fcyc : s.diagCopy.frm.fcyc = s.frm.fcyc := by unfold State.diagCopy; split <;> rfl
@[simp] theorem State.lineStart_line : s.lineStart.frm.line = s.frm.line := by simp [State.lineStart]
@[simp] theorem State.lineStart_acc : s.lineStart.frm.acc = s.frm.acc := by simp [State.lineStart]
@[simp] theorem State.lineStart_fcyc : s.lineStart.frm.fcyc = s.frm.fcyc := by simp [State.lineStart]
@[simp] theorem State.lineStart_dur : s.lineStart.frm.dur = 0 := rfl
@[simp] theorem State.lineStart_seen : s.lineStart.frm.seen = s.lat.beep := rfl
@[simp] theorem State.cpuReset_run : s.cpuReset.cpu.run = s.cpu.run := by simp [State.cpuReset]
@[simp] theorem State.cpuInterrupt_run : s.cpuInterrupt.cpu.run = s.cpu.run := by simp [State.cpuInterrupt]
@[simp] theorem State.frameInterrupt_run : s.frameInterrupt.cpu.run = s.cpu.run := by
  unfold State.frameInterrupt; split <;> simp
@[simp] theorem State.machineReset_run : s.machineReset.cpu.run = s.cpu.run := by
  simp [State.machineReset, State.freeBorder]

@[simp] theorem State.throttledRefresh_sq : s.throttledRefresh.snk.sq = s.snk.sq := by
  unfold State.throttledRefresh; split <;> rfl
@[simp] theorem State.throttledRefresh_out : s.throttledRefresh.snk.out = s.snk.out := by
  unfold State.throttledRefresh; split <;> rfl
@[simp] theorem State.portWrite_seen (port : BitVec 16) (data : Byte) :
    (s.portWrite port data).frm.seen = (s.frm.seen || (portEven port && beeperField data)) := by
  unfold State.portWrite
  cases hp : portEven port <;> simp
@[simp] theorem State.portWrite_beep (port : BitVec 16) (data : Byte) :
    (s.portWrite port data).lat.beep = if portEven port then beeperField data else s.lat.beep := by
  unfold State.portWrite; split <;> rfl
@[simp] theorem State.portWrite_ear (port : BitVec 16) (data : Byte) :
    (s.portWrite port data).lat.ear = s.lat.ear := by
  unfold State.portWrite; split <;> rfl
@[simp] theorem State.lastError_of_fault (h : s.err.fault = true) : s.lastError = s.err.fcode := by
  simp [State.lastError, h]
@[simp] theorem State.lastError_of_noFault (h : s.err.fault = false) : s.lastError = s.err.terr := by
  simp [State.lastError, h]

end Sys2Proof.Machine
end

