-- ==== Sys2Proof/Laws/Ops.lean ====
section
/-!
SUPPORT. Once for each shared operation, everything it can do: an attempt at an operation, the refusal conditions, the
CPU unit's commands inside a run, the return of a run, the tape line emission.
-/
namespace Sys2Proof.Machine

/-! ### Attempts and refusal conditions -/

@[simp] theorem attempt_done (s : State) (i : Instr) (e : State) : s.attempt i none e = e := rfl

@[simp] theorem attempt_refused (s : State) (i : Instr) (w : Why) (e : State) :
    s.attempt i (some w) e = s.refuse (encode i) w := rfl

/-- An attempt either has the operation's effect or is the refusal. -/
theorem attempt_cases (s : State) (i : Instr) (why : Option Why) (e : State) :
    (why = none ∧ s.attempt i why e = e) ∨ ∃ w, why = some w ∧ s.attempt i why e = s.refuse (encode i) w := by
  cases why with
  | none => exact .inl ⟨rfl, rfl⟩
  | some w => exact .inr ⟨w, rfl, rfl⟩

/-- An operation is not barred exactly if its issuer is listed, there is no fault, and it has no reason of its own. -/
theorem barred_eq_none {s : State} {gs : List Agent} {own : Option Why} :
    s.barred gs own = none ↔ s.env.issuer ∈ gs ∧ s.err.fault = false ∧ own = none := by
  unfold State.barred
  by_cases hg : s.env.issuer ∈ gs <;> by_cases hf : s.err.fault = true <;> simp [hg, hf]

theorem barred_of_ready {s : State} {g : Agent} {gs : List Agent} (own : Option Why) (h : s.MayIssue g) (hg : g ∈ gs) :
    s.barred gs own = own := by
  obtain ⟨hi, hf⟩ := h
  simp [State.barred, hi, hg, hf]

/-- Under `FAULT` = 1 every operation that asks `barred` is refused. -/
theorem barred_of_fault {s : State} (gs : List Agent) (own : Option Why) (h : s.err.fault = true) :
    ∃ w, s.barred gs own = some w := by
  unfold State.barred
  split
  · exact ⟨.faulted, by simp⟩
  · exact ⟨.wrongAgent, rfl⟩

theorem midFrame_eq_none {s : State} : s.midFrame = none ↔ s.frm.line = 0 := by
  unfold State.midFrame; split <;> simp_all

theorem loading_eq_none {s : State} : s.loading = none ↔ s.tap.tst = .idle := by
  unfold State.loading; split <;> simp_all

theorem offPhase_eq_none {s : State} {ph : APhase} : s.offPhase ph = none ↔ s.aud.aph = ph := by
  unfold State.offPhase; split <;> simp_all

/-- What a refusal leaves: the block as it was, and the report. -/
theorem refuse_refusedTo (s : State) (c : Cmd) (w : Why) : s.RefusedTo (s.refuse c w) c w :=
  ⟨⟨rfl, rfl, rfl, rfl, rfl, rfl, rfl, rfl⟩, rfl⟩

/-! ### The CPU unit's commands inside a run -/

/-- What the port operations cannot touch, and what they can only add to. -/
structure State.PortFrame (s t : State) : Prop where
  ear : t.lat.ear = s.lat.ear
  line : t.frm.line = s.frm.line
  dur : t.frm.dur = s.frm.dur
  acc : t.frm.acc = s.frm.acc
  fcyc : t.frm.fcyc = s.frm.fcyc
  diag : t.frm.diag = s.frm.diag
  diagValid : t.frm.diagValid = s.frm.diagValid
  err : t.err = s.err
  mbx : t.mbx = s.mbx
  aud : t.aud = s.aud
  tap : t.tap = s.tap
  snk : t.snk = s.snk
  regs : t.cpu.regs = s.cpu.regs
  calls : t.log.calls = s.log.calls
  faultLog : t.log.faultLog = s.log.faultLog
  keys : t.log.keys = s.log.keys
  issuer : t.env.issuer = s.env.issuer
  cmds : t.env.cmds = s.env.cmds
  aWork : t.env.aWork = s.env.aWork
  pWork : t.env.pWork = s.env.pWork
  runs : t.env.runs = s.env.runs
  regsAfter : t.env.regsAfter = s.env.regsAfter
  allocs : t.env.allocs = s.env.allocs

theorem portFrame_rfl (s : State) : s.PortFrame s := by constructor <;> rfl

theorem portFrame_trans {s t u : State} (h : s.PortFrame t) (k : t.PortFrame u) : s.PortFrame u := by
  constructor
  all_goals first
    | exact k.ear.trans h.ear | exact k.line.trans h.line | exact k.dur.trans h.dur | exact k.acc.trans h.acc
    | exact k.fcyc.trans h.fcyc | exact k.diag.trans h.diag | exact k.diagValid.trans h.diagValid
    | exact k.err.trans h.err | exact k.mbx.trans h.mbx | exact k.aud.trans h.aud | exact k.tap.trans h.tap
    | exact k.snk.trans h.snk | exact k.regs.trans h.regs | exact k.calls.trans h.calls
    | exact k.faultLog.trans h.faultLog | exact k.keys.trans h.keys | exact k.issuer.trans h.issuer
    | exact k.cmds.trans h.cmds | exact k.aWork.trans h.aWork
    | exact k.pWork.trans h.pWork | exact k.runs.trans h.runs | exact k.regsAfter.trans h.regsAfter
    | exact k.allocs.trans h.allocs

theorem refuse_portFrame {s : State} (hc : s.env.issuer = .c) (c : Cmd) (w : Why) : s.PortFrame (s.refuse c w) := by
  constructor <;> simp [State.refuse, hc]

theorem portWrite_portFrame (s : State) (port : BitVec 16) (data : Byte) : s.PortFrame (s.portWrite port data) := by
  unfold State.portWrite
  split
  · constructor <;> rfl
  · exact portFrame_rfl s

theorem portRead_portFrame (s : State) (port : BitVec 16) : s.PortFrame (s.portRead port) := by
  unfold State.portRead State.drawRead
  split
  · split <;> constructor <;> rfl
  · constructor <;> rfl

theorem attempt_portFrame {s e : State} (hc : s.env.issuer = .c) (i : Instr) (why : Option Why) (h : s.PortFrame e) :
    s.PortFrame (s.attempt i why e) := by
  cases why with
  | none => exact h
  | some w => exact refuse_portFrame hc _ w

/-- A command of the CPU unit inside a run touches only `BEEP`, `BORDER`, `SEEN`, the answers to reads and the
reports. -/
theorem issueInRun_portFrame {s : State} (hc : s.env.issuer = .c) (c : Cmd) : s.PortFrame (s.issueInRun c) := by
  unfold State.issueInRun
  split
  · exact attempt_portFrame hc _ _ (portWrite_portFrame s _ _)
  · exact attempt_portFrame hc _ _ (portRead_portFrame s _)
  · exact refuse_portFrame hc _ _
  · exact refuse_portFrame hc _ _

@[simp] theorem issueInRun_cpu (s : State) (c : Cmd) : (s.issueInRun c).cpu = s.cpu := by
  unfold State.issueInRun State.doPortw State.doPortr
  split
  · cases s.portWhy <;> simp
  · cases s.portWhy <;> simp
  · simp
  · simp

theorem popRunOp_portFrame (s : State) : s.PortFrame s.popRunOp := by constructor <;> rfl

theorem runOps_portFrame (cs : List Cmd) : ∀ {s : State}, s.env.issuer = .c → s.PortFrame (State.runOps cs s) := by
  induction cs with
  | nil => intro s _; exact portFrame_rfl s
  | cons c cs ih =>
    intro s hc
    have h1 : s.PortFrame (s.popRunOp.issueInRun c) :=
      portFrame_trans (popRunOp_portFrame s) (issueInRun_portFrame (s := s.popRunOp) hc c)
    exact portFrame_trans h1 (ih (h1.issuer.trans hc))

/-- The call in progress keeps what it was asked, by whom, and what it will answer. -/
theorem runOps_run (cs : List Cmd) : ∀ {s : State} {r : Run}, s.cpu.run = some r →
    (State.runOps cs s).cpu.run = some { r with ops := r.ops.drop cs.length } := by
  induction cs with
  | nil => intro s r h; simpa [State.runOps] using h
  | cons c cs ih =>
    intro s r h
    have h1 : (s.popRunOp.issueInRun c).cpu.run = some { r with ops := r.ops.tail } := by
      simp [State.popRunOp, h]
    have h2 := ih h1
    simpa [State.runOps, List.drop_tail] using h2

/-- Inside a run, for agent `C` and without a fault, a port operation is not refused. -/
theorem popRunOp_portWhy {s : State} (hc : s.env.issuer = .c) (hf : s.err.fault = false) (hr : s.cpu.run.isSome = true) :
    s.popRunOp.portWhy = none := by
  unfold State.portWhy
  rw [barred_eq_none]
  exact ⟨by rw [show s.popRunOp.env.issuer = s.env.issuer from rfl, hc]; simp, hf, by simp [State.popRunOp, hr]⟩

/-- The latches after one command of the CPU unit (rules R115, R116, R118). -/
theorem issueInRun_lat {s : State} (h : s.portWhy = none) (c : Cmd) : (s.issueInRun c).lat = s.lat.afterCmd c := by
  unfold State.issueInRun Latches.afterCmd
  rcases hd : decode c with e | i
  · rfl
  · cases i with
    | portw port data =>
      cases hp : port.getLsbD 0 <;>
        simp only [State.doPortw, h, attempt_done, State.portWrite, portEven, hp] <;> rfl
    | portr port => exact (by simp [State.doPortr, h] : (s.doPortr port).lat = s.lat)
    | _ => rfl

/-- The latches after the commands of a run. -/
theorem runOps_lat (cs : List Cmd) : ∀ {s : State}, s.env.issuer = .c → s.err.fault = false → s.cpu.run.isSome = true →
    (State.runOps cs s).lat = s.lat.afterCmds cs := by
  induction cs with
  | nil => intro s _ _ _; rfl
  | cons c cs ih =>
    intro s hc hf hr
    have hpop : s.popRunOp.PortFrame (s.popRunOp.issueInRun c) := issueInRun_portFrame (s := s.popRunOp) hc c
    rw [State.runOps, ih (hpop.issuer.trans hc) (by rw [hpop.err]; exact hf) (by
      rw [issueInRun_cpu]; simpa [State.popRunOp] using hr), issueInRun_lat (popRunOp_portWhy hc hf hr)]
    rfl

/-- Bit 6 of the byte of an even-port read is `EAR` (rule R90). -/
theorem readByte_ear (ear : Bool) (x : ReadInput) : (readByte ear x).getLsbD 6 = ear := by
  obtain ⟨k, a, b⟩ := x
  revert k
  cases ear <;> cases a <;> cases b <;> simp only [readByte] <;> decide

/-- All a port read adds to the records: the byte returned (rules R116, R118). -/
theorem portRead_log (s : State) (port : BitVec 16) :
    ∃ b : Byte, (s.portRead port).log = { s.log with returns := s.log.returns ++ [(s.env.issuer, .byte b)] } ∧
      if port.getLsbD 0 then b = Config.floatBus else b.getLsbD 6 = s.lat.ear := by
  unfold State.portRead portEven
  cases port.getLsbD 0
  · have hi : (s.drawRead (portHigh port)).2.env.issuer = s.env.issuer := by unfold State.drawRead; split <;> rfl
    exact ⟨_, by rw [if_pos (by rfl), State.giveBack, State.drawRead_log, hi], readByte_ear _ _⟩
  · exact ⟨_, rfl, rfl⟩

/-- The records after one command of the CPU unit (rules R88, R116, R117, R118). -/
theorem issueInRun_records {s : State} (hc : s.env.issuer = .c) (h : s.portWhy = none) (c : Cmd) :
    s.RunRecords (s.issueInRun c) [c] := by
  have none_read (hr : portReads [c] = []) (hl : (s.issueInRun c).log.returns = s.log.returns)
      (hf : (s.issueInRun c).log.refused = s.log.refused ++
        [c].filterMap fun c => (refusedInRun c).map fun w => { agent := .c, cmd := c, why := w }) :
      s.RunRecords (s.issueInRun c) [c] :=
    ⟨⟨[], by rw [hr]; rfl, by simp, by rw [hl]; simp⟩, hf⟩
  rcases hd : decode c with e | i
  · have hi : s.issueInRun c = s.refuse c (.undecodable e) := by simp only [State.issueInRun, hd]
    exact none_read (by simp [portReads, hd]) (by rw [hi]; rfl) (by rw [hi]; simp [State.refuse, hc, refusedInRun, hd])
  · cases i with
    | portw port data =>
      have hi : (s.issueInRun c).log = s.log := by
        simp only [State.issueInRun, hd, State.doPortw, h, attempt_done, State.portWrite]
        split <;> rfl
      exact none_read (by simp [portReads, hd]) (by rw [hi]) (by rw [hi]; simp [refusedInRun, hd])
    | portr port =>
      obtain ⟨b, hb, hx⟩ := portRead_log s port
      have hi : s.issueInRun c = s.portRead port := by simp only [State.issueInRun, hd, State.doPortr, h, attempt_done]
      have hr : portReads [c] = [port] := by simp [portReads, hd]
      rw [hi]
      refine ⟨⟨[b], by rw [hr]; rfl, ?_, by rw [hb, hc]; rfl⟩, by rw [hb]; simp [refusedInRun, hd]⟩
      rw [hr]
      intro x hm
      cases List.mem_singleton.mp hm
      exact hx
    | _ =>
      have hi : s.issueInRun c = s.refuse c .wrongAgent := by simp only [State.issueInRun, hd]
      exact none_read (by simp [portReads, hd]) (by rw [hi]; rfl)
        (by rw [hi]; simp [State.refuse, hc, refusedInRun, hd])

/-- The records of a run are those of its first command, then those of the rest. -/
theorem runRecords_cons {s u t : State} {c : Cmd} {cs : List Cmd} (h : s.RunRecords u [c]) (hl : u.lat.ear = s.lat.ear)
    (k : u.RunRecords t cs) : s.RunRecords t (c :: cs) := by
  obtain ⟨⟨b1, n1, e1, r1⟩, f1⟩ := h
  obtain ⟨⟨b2, n2, e2, r2⟩, f2⟩ := k
  have hp : portReads (c :: cs) = portReads [c] ++ portReads cs := by
    unfold portReads; rw [← List.filterMap_append]; rfl
  refine ⟨⟨b1 ++ b2, by simp [hp, n1, n2], ?_, by rw [r2, r1]; simp⟩, ?_⟩
  · intro x hx
    rw [hp, List.zip_append n1.symm, List.mem_append] at hx
    rcases hx with hx | hx
    · exact e1 x hx
    · rw [← hl]; exact e2 x hx
  · rw [f2, f1, List.append_assoc, ← List.filterMap_append]; rfl

/-- The records after the commands of a run. -/
theorem runOps_records (cs : List Cmd) : ∀ {s : State}, s.env.issuer = .c → s.err.fault = false →
    s.cpu.run.isSome = true → s.RunRecords (State.runOps cs s) cs := by
  induction cs with
  | nil => intro s _ _ _; exact ⟨⟨[], rfl, by simp [portReads], by simp [State.runOps]⟩, by simp [State.runOps]⟩
  | cons c cs ih =>
    intro s hc hf hr
    have hpop : s.popRunOp.PortFrame (s.popRunOp.issueInRun c) := issueInRun_portFrame (s := s.popRunOp) hc c
    exact runRecords_cons (s := s) (u := s.popRunOp.issueInRun c) (issueInRun_records (s := s.popRunOp) hc (popRunOp_portWhy hc hf hr) c)
      hpop.ear (ih (hpop.issuer.trans hc) (by rw [hpop.err]; exact hf) (by
        rw [issueInRun_cpu]; simpa [State.popRunOp] using hr))

/-- `SEEN` after the commands: 1 if it was 1 before or one of them leaves `BEEP` = 1 (rule R127). -/
theorem runOps_seen (cs : List Cmd) : ∀ {s : State}, s.env.issuer = .c → s.err.fault = false → s.cpu.run.isSome = true →
    ((State.runOps cs s).frm.seen = true ↔ s.frm.seen = true ∨ ∃ c ∈ cs, raisesBeeper c) := by
  induction cs with
  | nil => intro s _ _ _; simp [State.runOps]
  | cons c cs ih =>
    intro s hc hf hr
    have hpop : s.popRunOp.PortFrame (s.popRunOp.issueInRun c) :=
      issueInRun_portFrame (s := s.popRunOp) hc c
    have hr' : s.popRunOp.cpu.run.isSome = true := by simpa [State.popRunOp] using hr
    have hw : s.popRunOp.portWhy = none := popRunOp_portWhy hc hf hr
    have hseen : (s.popRunOp.issueInRun c).frm.seen = true ↔ s.frm.seen = true ∨ raisesBeeper c := by
      unfold State.issueInRun
      split
      · next port data hd =>
        have hx : raisesBeeper c ↔ port.getLsbD 0 = false ∧ data.getLsbD 4 = true := by
          unfold raisesBeeper
          constructor
          · rintro ⟨p, d, hpd, h⟩
            rw [hd] at hpd; cases hpd; exact h
          · exact fun h => ⟨port, data, hd, h⟩
        rw [hx]
        simp [State.doPortw, hw, portEven, beeperField]
      · next port hd => simp [State.doPortr, hw, raisesBeeper, hd]
      · next i h1 h2 hd =>
        simp only [State.refuse_frm, State.popRunOp_frm, raisesBeeper]
        constructor
        · exact .inl
        · rintro (h | ⟨p, d, hpd, -⟩)
          · exact h
          · rw [hd] at hpd; cases hpd; exact absurd rfl (h1 p d)
      · next e hd =>
        simp only [State.refuse_frm, State.popRunOp_frm, raisesBeeper, hd]
        simp
    have h2 := ih (s := s.popRunOp.issueInRun c) (hpop.issuer.trans hc)
      (by rw [hpop.err]; exact hf) (by rw [issueInRun_cpu]; exact hr')
    rw [State.runOps, h2, hseen]
    simp [or_assoc]

/-! ### The return of a run -/

theorem countFault_eq_none {asked count : Nat} (h : 0 < asked) : countFault asked count = none ↔ count = asked := by
  unfold countFault
  split
  · constructor
    · intro h'; cases h'
    · omega
  · split <;> simp_all

/-- The state in which a `Cpu.run` call has been answered and the caller goes on. -/
def State.afterRun (s : State) (asked : Nat) (user : RunUser) : State :=
  (State.runOps s.drawRun.1.ops (s.openRun asked user)).closeRun
    { asked := asked, user := user, ops := [], count := s.drawRun.1.count, regs := s.drawRun.1.regs }

/-- A whole `Cpu.run` call: the fault its count raises, or the rest of `LINE` or of the chunk. -/
theorem cpuRun_eq (s : State) (asked : Nat) (user : RunUser) :
    s.cpuRun asked user =
      match countFault asked s.drawRun.1.count with
      | some f => (s.afterRun asked user).raise f
      | none =>
        match user with
        | .line en => (s.afterRun asked user).lineStore en s.drawRun.1.count
        | .chunk rem => (s.afterRun asked user).chunkStore rem asked := by
  have h : (s.openRun asked user).cpu.run =
      some { asked := asked, user := user, ops := s.drawRun.1.ops, count := s.drawRun.1.count,
             regs := s.drawRun.1.regs } := rfl
  have h2 := runOps_run s.drawRun.1.ops h
  unfold State.cpuRun State.finishRun
  rw [h2]
  simp only [State.afterRun, State.closeRun]
  all_goals rfl

/-- What a `Cpu.run` call changes before the caller goes on: the latches' beeper and border, `SEEN`, the registers and
the records. -/
structure State.CallFrame (s t : State) (asked : Nat) : Prop where
  ear : t.lat.ear = s.lat.ear
  line : t.frm.line = s.frm.line
  dur : t.frm.dur = s.frm.dur
  acc : t.frm.acc = s.frm.acc
  fcyc : t.frm.fcyc = s.frm.fcyc
  diag : t.frm.diag = s.frm.diag
  diagValid : t.frm.diagValid = s.frm.diagValid
  err : t.err = s.err
  mbx : t.mbx = s.mbx
  aud : t.aud = s.aud
  tap : t.tap = s.tap
  snk : t.snk = s.snk
  run : t.cpu.run = none
  calls : t.log.calls = s.log.calls ++ [.run asked]
  faultLog : t.log.faultLog = s.log.faultLog
  keys : t.log.keys = s.log.keys
  issuer : t.env.issuer = .p
  cmds : t.env.cmds = s.env.cmds
  aWork : t.env.aWork = s.env.aWork
  pWork : t.env.pWork = s.env.pWork
  runs : t.env.runs = s.env.runs.tail
  regsAfter : t.env.regsAfter = s.env.regsAfter
  allocs : t.env.allocs = s.env.allocs

theorem afterRun_callFrame (s : State) (asked : Nat) (user : RunUser) :
    s.CallFrame (s.afterRun asked user) asked := by
  have h : (s.openRun asked user).PortFrame _ := runOps_portFrame s.drawRun.1.ops (s := s.openRun asked user) rfl
  have hd : s.drawRun.2.env.runs = s.env.runs.tail ∧ s.drawRun.2.env.cmds = s.env.cmds ∧
      s.drawRun.2.env.aWork = s.env.aWork ∧
      s.drawRun.2.env.pWork = s.env.pWork ∧ s.drawRun.2.env.regsAfter = s.env.regsAfter ∧
      s.drawRun.2.env.allocs = s.env.allocs := by
    unfold State.drawRun; split <;> simp [*]
  obtain ⟨h1, h2, h4, h5, h6, h7⟩ := hd
  constructor
  case ear => exact h.ear.trans (by simp)
  case line => exact h.line.trans (by simp)
  case dur => exact h.dur.trans (by simp)
  case acc => exact h.acc.trans (by simp)
  case fcyc => exact h.fcyc.trans (by simp)
  case diag => exact h.diag.trans (by simp)
  case diagValid => exact h.diagValid.trans (by simp)
  case err => exact h.err.trans (by simp)
  case mbx => exact h.mbx.trans (by simp)
  case aud => exact h.aud.trans (by simp)
  case tap => exact h.tap.trans (by simp)
  case snk => exact h.snk.trans (by simp)
  case run => rfl
  case calls => exact h.calls.trans rfl
  case faultLog => exact h.faultLog.trans (by simp [State.openRun])
  case keys => exact h.keys.trans (by simp [State.openRun])
  case issuer => rfl
  case cmds => exact h.cmds.trans h2
  case aWork => exact h.aWork.trans h4
  case pWork => exact h.pWork.trans h5
  case runs => exact h.runs.trans h1
  case regsAfter => exact h.regsAfter.trans h6
  case allocs => exact h.allocs.trans h7

/-- `SEEN` when the caller goes on (rule R127). -/
theorem afterRun_seen {s : State} (hf : s.err.fault = false) (asked : Nat) (user : RunUser) :
    (s.afterRun asked user).frm.seen = true ↔ s.frm.seen = true ∨ ∃ c ∈ s.drawRun.1.ops, raisesBeeper c := by
  have h := runOps_seen s.drawRun.1.ops (s := s.openRun asked user) rfl (by simpa using hf) rfl
  simpa [State.afterRun, State.closeRun] using h

/-- The latches when the caller goes on (rules R20, R22, R115). -/
theorem afterRun_lat {s : State} (hf : s.err.fault = false) (asked : Nat) (user : RunUser) :
    (s.afterRun asked user).lat = s.lat.afterCmds s.drawRun.1.ops := by
  have h := runOps_lat s.drawRun.1.ops (s := s.openRun asked user) rfl (by simpa using hf) rfl
  simpa [State.afterRun, State.closeRun] using h

/-- The records when the caller goes on. -/
theorem afterRun_records {s : State} (hf : s.err.fault = false) (asked : Nat) (user : RunUser) :
    s.RunRecords (s.afterRun asked user) s.drawRun.1.ops := by
  have h := runOps_records s.drawRun.1.ops (s := s.openRun asked user) rfl (by simpa using hf) rfl
  unfold State.RunRecords at h ⊢
  have hl : (s.openRun asked user).log.returns = s.log.returns ∧ (s.openRun asked user).log.refused = s.log.refused := by
    unfold State.openRun State.drawRun; split <;> exact ⟨rfl, rfl⟩
  rw [hl.1, hl.2, show (s.openRun asked user).lat = s.lat by simp] at h
  exact h

/-! ### Frames of counters -/


@[simp] theorem entry_replicate (v k : Nat) (h : k < 312) :
    LineFrame.entry (Vector.replicate 312 v) k = v := by
  simp [LineFrame.entry, h]

theorem entry_set (F : LineFrame) (i v k : Nat) :
    LineFrame.entry (F.setIfInBounds i v) k = if i = k ∧ k < 312 then v else F.entry k := by
  unfold LineFrame.entry
  rw [Vector.getElem?_setIfInBounds]
  by_cases h : i = k
  · subst h
    by_cases h2 : i < 312
    · simp [h2]
    · simp [h2]
  · simp [h]

theorem allOrNothing_zero : AllOrNothing (Vector.replicate 312 0) := by
  intro k hk; left; simp [hk]

theorem allOrNothing_set {F : LineFrame} (h : AllOrNothing F) (i : Nat) {v : Nat} (hv : v = 0 ∨ v = 224) :
    AllOrNothing (F.setIfInBounds i v) := by
  intro k hk
  rw [entry_set]
  split
  · exact hv
  · exact h k hk

/-! ### Tape lines and tape frames -/

/-- The state just before a line is counted: its value stands in `TACC[TLN]` (rule R151). -/
def State.lineWritten (s : State) : State :=
  { s with tap.tacc := s.tap.tacc.setIfInBounds s.tap.tln (if s.lat.ear then 224 else 0) }

/-- A line emission: the 312th completes the frame, any other moves on to the next line (rule R151). -/
theorem emitLine_eq (s : State) :
    s.emitLine = if s.tap.tln = 311 then s.lineWritten.completeFrame
      else { s.lineWritten with tap.tln := s.tap.tln + 1 } := rfl

/-- What the tape frame completion writes (rule R152). -/
theorem completeFrame_spec (s : State) :
    s.completeFrame.mbx = ⟨s.tap.tacc, true, .tape⟩ ∧
      s.completeFrame.tap = { s.tap with tln := 0, tfr := s.tap.tfr + 1 } ∧
      s.completeFrame.cpu.run = s.cpu.run ∧ s.completeFrame.snk.sq = s.snk.sq ∧
      s.completeFrame.snk.out = s.snk.out := by
  unfold State.completeFrame
  refine ⟨by simp, by simp, by simp, ?_, ?_⟩ <;> simp

end Sys2Proof.Machine
end

