-- ==== Sys2Proof/Laws/Line.lean ====
section
/-!
SUPPORT. When each operation of the primary context is accepted, and a scanline taken apart: its start, the outcome of
its run, the store (rules R126 to R131).
-/
namespace Sys2Proof.Machine

/-! ### Acceptance -/

theorem tapePlaying_eq_false {s : State} : s.tapePlaying = false ↔ s.NotPlaying := by
  simp [State.tapePlaying, State.NotPlaying]

theorem lineWhy_eq_none {s : State} (h : s.MayIssue .p) (hl : s.frm.line < 312) (hn : s.NotPlaying) :
    s.lineWhy = none := by
  unfold State.lineWhy
  rw [barred_of_ready _ h (by simp), tapePlaying_eq_false.mpr hn]
  simp [Config.nLines, hl]

theorem frameWhy_eq_none {s : State} (h : s.MayIssue .p) (hl : s.frm.line = 0) (hn : s.NotPlaying) :
    s.frameWhy = none := by
  unfold State.frameWhy
  rw [barred_of_ready _ h (by simp), tapePlaying_eq_false.mpr hn]
  simpa using midFrame_eq_none.mpr hl

theorem eofWhy_eq_none {s : State} (h : s.MayIssue .p) (hl : s.frm.line = 312) : s.eofWhy = none := by
  unfold State.eofWhy
  rw [barred_of_ready _ h (by simp)]
  simp [Config.nLines, hl]

theorem portWhy_eq_none {s : State} (h : s.MayIssue .c) (hr : s.cpu.run ≠ none) : s.portWhy = none := by
  unfold State.portWhy
  rw [barred_of_ready _ h (by simp)]
  cases hx : s.cpu.run with
  | none => exact absurd hx hr
  | some r => rfl

theorem tloadWhy_eq_none {s : State} (h : s.MayIssue .p) (ht : s.tap.tst = .idle) : s.tloadWhy = none := by
  unfold State.tloadWhy
  rw [barred_of_ready _ h (by simp)]
  exact loading_eq_none.mpr ht

theorem mresetWhy_eq_none {s : State} (h : s.MayIssue .p) (ht : s.tap.tst = .idle) : s.mresetWhy = none := by
  unfold State.mresetWhy
  rw [barred_of_ready _ h (by simp)]
  exact loading_eq_none.mpr ht

theorem pulseWhy_eq_none {s : State} (h : s.MayIssue .p) (hl : s.frm.line = 0) {w : Nat} (hw : w ≠ 0) :
    s.pulseWhy w = none := by
  unfold State.pulseWhy
  rw [barred_of_ready _ h (by simp)]
  simpa [hw] using midFrame_eq_none.mpr hl

theorem audioWhy_eq_none {s : State} {ph : APhase} (h : s.MayIssue .a) (hp : s.aud.aph = ph) :
    s.audioWhy ph = none := by
  unfold State.audioWhy
  rw [barred_of_ready _ h (by simp)]
  exact offPhase_eq_none.mpr hp

/-! ### One scanline -/

/-- The answer drawn depends on the environment alone. -/
theorem drawRun_congr {s t : State} (h : s.env = t.env) : s.drawRun.1 = t.drawRun.1 := by
  unfold State.drawRun
  rw [h]
  cases t.env.runs <;> rfl

/-- The diagnostic copy touches `DIAG` and `DIAG_VALID` alone (rule R131). -/
theorem diagCopy_eq (s : State) :
    s.diagCopy = { s with
      frm.diag := if s.frm.line = 156 then s.cpu.regs else s.frm.diag
      frm.diagValid := if s.frm.line = 156 then true else s.frm.diagValid } := by
  unfold State.diagCopy
  by_cases h : s.frm.line = 156 <;> simp [Config.lineDiag, h]

/-- The start of a scanline (rule R126, steps 1 and 2). -/
theorem lineStart_eq (s : State) :
    s.lineStart = { s with
      frm.diag := if s.frm.line = 156 then s.cpu.regs else s.frm.diag
      frm.diagValid := if s.frm.line = 156 then true else s.frm.diagValid
      frm.dur := 0
      frm.seen := s.lat.beep } := by
  unfold State.lineStart
  rw [diagCopy_eq]

theorem lineStart_drawRun (s : State) : s.lineStart.drawRun.1 = s.drawRun.1 :=
  drawRun_congr (by rw [lineStart_eq])

/-- The state in which a scanline's run has returned (rule R126, after step 3). -/
def State.lineReturned (s : State) (en : Bool) : State := s.lineStart.afterRun 224 (.line en)

/-- An accepted `LINE`: its run, then the fault the count raises or the store (rules R126, R128, R129). -/
theorem exec_line {s : State} (en : Bool) (h : s.lineWhy = none) :
    exec (.line en) s = .next (match countFault 224 s.drawRun.1.count with
      | some f => (s.lineReturned en).raise f
      | none => (s.lineReturned en).lineStore en s.drawRun.1.count) := by
  show Host.Outcome.next (s.attempt (.line en) s.lineWhy (s.lineStart.cpuRun 224 (.line en))) = _
  rw [h, attempt_done, cpuRun_eq, lineStart_drawRun]
  rfl

/-- What has changed when a scanline's run has returned. -/
theorem lineReturned_callFrame (s : State) (en : Bool) : s.lineStart.CallFrame (s.lineReturned en) 224 :=
  afterRun_callFrame _ _ _

/-- `SEEN` when a scanline's run has returned (rule R127). -/
theorem lineReturned_seen {s : State} (hf : s.err.fault = false) (en : Bool) :
    (s.lineReturned en).frm.seen = true ↔ s.lat.beep = true ∨ ∃ c ∈ s.drawRun.1.ops, raisesBeeper c := by
  have h := afterRun_seen (s := s.lineStart) (by rw [lineStart_eq]; exact hf) 224 (.line en)
  rw [lineStart_drawRun] at h
  rw [State.lineReturned, h, lineStart_eq]

/-- The latches when a scanline's run has returned. -/
theorem lineReturned_lat {s : State} (hf : s.err.fault = false) (en : Bool) :
    (s.lineReturned en).lat = s.lat.afterCmds s.drawRun.1.ops := by
  have h := afterRun_lat (s := s.lineStart) (by rw [lineStart_eq]; exact hf) 224 (.line en)
  rw [lineStart_drawRun] at h
  rw [State.lineReturned, h, lineStart_eq]

/-- The records when a scanline's run has returned. -/
theorem lineReturned_records {s : State} (hf : s.err.fault = false) (en : Bool) :
    s.RunRecords (s.lineReturned en) s.drawRun.1.ops := by
  have h := afterRun_records (s := s.lineStart) (by rw [lineStart_eq]; exact hf) 224 (.line en)
  rw [lineStart_drawRun] at h
  unfold State.RunRecords at h ⊢
  rw [lineStart_eq] at h
  simpa only [State.lineReturned, lineStart_eq] using h

/-- The registers shown when a scanline's run has returned. -/
theorem lineReturned_cpu (s : State) (en : Bool) :
    (s.lineReturned en).cpu = { regs := s.drawRun.1.regs, run := none } := by
  unfold State.lineReturned State.afterRun State.closeRun
  rw [lineStart_drawRun]

end Sys2Proof.Machine
end

