-- ==== Sys2Proof/Laws/PerInstr.lean ====
section
/-!
SUPPORT. For every operation: its word carries its row of the opcode table (rule R86): the match value under the mask.
-/
namespace Sys2Proof.Laws.TableRow

/-- The mask of the operation's row of spec/opcode_table.json. -/
def mask : Instr → Word
  | .portw _ _ => 0xFF000000#32
  | .portr _ => 0xFF0000FF#32
  | .line _ => 0xFFFFFFFE#32
  | .eof => 0xFFFFFFFF#32
  | .frame _ => 0xFFFFFFFE#32
  | .steady => 0xFFFFFFFF#32
  | .tload _ => 0xFFFFFFFF#32
  | .tboot => 0xFFFFFFFF#32
  | .pulse _ => 0xFF0000FF#32
  | .tblock _ => 0xFF0000FF#32
  | .tpause => 0xFFFFFFFF#32
  | .tplay _ => 0xFFFFFFFF#32
  | .setvol _ => 0xFFFFFFF0#32
  | .post => 0xFFFFFFFF#32
  | .take => 0xFFFFFFFF#32
  | .render => 0xFFFFFFFF#32
  | .submit => 0xFFFFFFFF#32
  | .wait => 0xFFFFFFFF#32
  | .flip => 0xFFFFFFFF#32
  | .aperiod => 0xFFFFFFFF#32
  | .sinkdone => 0xFFFFFFFF#32
  | .preset => 0xFFFFFFFF#32
  | .mreset => 0xFFFFFFFF#32
  | .lasterr => 0xFFFFFFFF#32

/-- The match value of the operation's row of spec/opcode_table.json. -/
def value : Instr → Word
  | .portw _ _ => 0x01000000#32
  | .portr _ => 0x02000000#32
  | .line _ => 0x10000000#32
  | .eof => 0x11000000#32
  | .frame _ => 0x12000000#32
  | .steady => 0x13000000#32
  | .tload _ => 0x20000000#32
  | .tboot => 0x21000000#32
  | .pulse _ => 0x22000000#32
  | .tblock _ => 0x23000000#32
  | .tpause => 0x24000000#32
  | .tplay _ => 0x25000000#32
  | .setvol _ => 0x30000000#32
  | .post => 0x31000000#32
  | .take => 0x32000000#32
  | .render => 0x33000000#32
  | .submit => 0x34000000#32
  | .wait => 0x35000000#32
  | .flip => 0x36000000#32
  | .aperiod => 0x37000000#32
  | .sinkdone => 0x38000000#32
  | .preset => 0xF0000000#32
  | .mreset => 0xF1000000#32
  | .lasterr => 0xF2000000#32

/-- The word of the operation lies in its row. -/
def Statement (i : Instr) : Prop := i.word &&& mask i = value i

/-- Masking a word masks its fields. -/
theorem fields_and (o o' : BitVec 8) (a a' : BitVec 16) (b b' : BitVec 8) :
    fields o a b &&& fields o' a' b' = fields (o &&& o') (a &&& a') (b &&& b') := by
  apply BitVec.eq_of_getLsbD_eq; intro i _
  simp only [fields, BitVec.getLsbD_and, BitVec.getLsbD_append]
  split <;> (try split) <;> rfl

/-- The word lies in the row, field by field. -/
theorem of_fields {o o' : BitVec 8} {a a' : BitVec 16} {b b' : BitVec 8} {m v : Word}
    (hm : m = fields o' a' b') (hv : v = fields (o &&& o') (a &&& a') (b &&& b')) : fields o a b &&& m = v := by
  rw [hm, hv, fields_and]

theorem portw (port : BitVec 16) (data : Byte) : Statement (.portw port data) := by
  exact of_fields (o' := 0xFF#8) (a' := 0#16) (b' := 0#8) rfl (by rw [BitVec.and_zero, BitVec.and_zero]; rfl)
theorem portr (port : BitVec 16) : Statement (.portr port) := by
  exact of_fields (o' := 0xFF#8) (a' := 0#16) (b' := 0xFF#8) rfl (by rw [BitVec.and_zero]; rfl)
theorem line (en : Bool) : Statement (.line en) := by cases en <;> (unfold Statement; decide)
theorem eof : Statement .eof := by unfold Statement; decide
theorem frame (en : Bool) : Statement (.frame en) := by cases en <;> (unfold Statement; decide)
theorem steady : Statement .steady := by unfold Statement; decide
theorem tload (img : List Byte) : Statement (.tload img) := by
  show fields 0x20#8 0#16 0#8 &&& 0xFFFFFFFF#32 = 0x20000000#32
  decide
theorem tboot : Statement .tboot := by unfold Statement; decide
theorem pulse (w : BitVec 16) : Statement (.pulse w) := by
  exact of_fields (o' := 0xFF#8) (a' := 0#16) (b' := 0xFF#8) rfl (by rw [BitVec.and_zero]; rfl)
theorem tblock (i : BitVec 16) : Statement (.tblock i) := by
  exact of_fields (o' := 0xFF#8) (a' := 0#16) (b' := 0xFF#8) rfl (by rw [BitVec.and_zero]; rfl)
theorem tpause : Statement .tpause := by unfold Statement; decide
theorem tplay (img : List Byte) : Statement (.tplay img) := by
  show fields 0x25#8 0#16 0#8 &&& 0xFFFFFFFF#32 = 0x25000000#32
  decide
theorem setvol (level : BitVec 4) : Statement (.setvol level) := by
  revert level
  show ∀ level : BitVec 4, fields 0x30#8 0#16 (0#4 ++ level) &&& 0xFFFFFFF0#32 = 0x30000000#32
  decide
theorem post : Statement .post := by unfold Statement; decide
theorem take : Statement .take := by unfold Statement; decide
theorem render : Statement .render := by unfold Statement; decide
theorem submit : Statement .submit := by unfold Statement; decide
theorem wait : Statement .wait := by unfold Statement; decide
theorem flip : Statement .flip := by unfold Statement; decide
theorem aperiod : Statement .aperiod := by unfold Statement; decide
theorem sinkdone : Statement .sinkdone := by unfold Statement; decide
theorem preset : Statement .preset := by unfold Statement; decide
theorem mreset : Statement .mreset := by unfold Statement; decide
theorem lasterr : Statement .lasterr := by unfold Statement; decide

end Sys2Proof.Laws.TableRow
end

