-- ==== Sys2Proof/Laws/Pulse.lean ====
section
/-!
SUPPORT. A chunk of a pulse taken apart: what its run, its line emission and a tape frame completion can change (rules
R150, R151, R152).
-/
namespace Sys2Proof.Machine

/-- The environment but for the registers drawn and the counter of draws. -/
structure Env.Same (e f : Env) : Prop where
  issuer : f.issuer = e.issuer
  cmds : f.cmds = e.cmds
  pWork : f.pWork = e.pWork
  aWork : f.aWork = e.aWork
  runs : f.runs = e.runs
  reads : f.reads = e.reads
  allocs : f.allocs = e.allocs

theorem env_same_rfl (e : Env) : e.Same e := by constructor <;> rfl

theorem drawRegs_env (s : State) : s.env.Same s.drawRegs.2.env := by
  unfold State.drawRegs
  split <;> constructor <;> rfl

theorem frameInterrupt_env (s : State) : s.env.Same s.frameInterrupt.env := by
  unfold State.frameInterrupt
  split
  · exact drawRegs_env s
  · exact env_same_rfl _

/-- The frame interrupt request is recorded exactly if it is made (rule R234). -/
theorem frameInterrupt_log (s : State) :
    s.frameInterrupt.log = { s.log with calls := s.log.calls ++
      if s.cpu.regs.iff1 = true ∧ s.cpu.regs.im = .im1 then [.interrupt Config.intVector] else [] } := by
  unfold State.frameInterrupt State.wantsInterrupt
  by_cases h : s.cpu.regs.iff1 = true ∧ s.cpu.regs.im = .im1
  · simp [h, State.cpuInterrupt]
  · rw [if_neg (by simpa using h), if_neg h]
    simp

/-- The throttled refresh adds at most one call, at the current position (rule R164). -/
theorem throttledRefresh_rlog (s : State) :
    s.throttledRefresh.snk.rlog = s.snk.rlog ++
      if 0 < Config.refreshPeriod ∧ s.tap.tfr % Config.refreshPeriod = 0 then [(s.tap.tbi, s.tap.tpi)] else [] := by
  unfold State.throttledRefresh State.refresh
  split <;> simp

/-- The records and the environment after a tape frame completion (rule R152). -/
theorem completeFrame_env (s : State) : s.env.Same s.completeFrame.env := by
  unfold State.completeFrame
  simpa using frameInterrupt_env (s.postFrame s.tap.tacc .tape)

theorem completeFrame_log (s : State) :
    s.completeFrame.log = { s.log with calls := s.log.calls ++
      if s.cpu.regs.iff1 = true ∧ s.cpu.regs.im = .im1 then [.interrupt Config.intVector] else [] } := by
  have h := frameInterrupt_log (s.postFrame s.tap.tacc .tape)
  unfold State.completeFrame
  simp only [State.throttledRefresh_log]
  rw [h]
  rfl

/-- The line emission leaves `TPHASE` and the tape's contents; it moves `TLN` round the 312 lines, and `TFR` when it
comes round (rules R151, R152). -/
theorem emitLine_tap (s : State) :
    s.emitLine.tap = { s.tap with
      tacc := s.tap.tacc.setIfInBounds s.tap.tln (if s.lat.ear then 224 else 0)
      tln := if s.tap.tln = 311 then 0 else s.tap.tln + 1
      tfr := if s.tap.tln = 311 then s.tap.tfr + 1 else s.tap.tfr } := by
  rw [emitLine_eq]
  by_cases h : s.tap.tln = 311
  · rw [if_pos h, (completeFrame_spec _).2.1]
    simp [State.lineWritten, h]
  · simp [State.lineWritten, h]

theorem emitLine_env (s : State) : s.env.Same s.emitLine.env := by
  rw [emitLine_eq]
  split
  · exact completeFrame_env s.lineWritten
  · exact env_same_rfl _

/-- Only the 312th line touches the mailbox, the outputs, the CPU unit and the records. -/
theorem emitLine_of_ne {s : State} (h : s.tap.tln ≠ 311) :
    s.emitLine.mbx = s.mbx ∧ s.emitLine.snk = s.snk ∧ s.emitLine.cpu = s.cpu ∧ s.emitLine.log = s.log := by
  rw [emitLine_eq, if_neg h]
  exact ⟨rfl, rfl, rfl, rfl⟩

/-- The frame interrupt request is the only call a line emission can make. -/
theorem emitLine_calls (s : State) :
    s.emitLine.log.calls = s.log.calls ∨ s.tap.tln = 311 ∧ s.emitLine.log.calls = s.log.calls ++ [.interrupt Config.intVector] := by
  rw [emitLine_eq]
  by_cases h : s.tap.tln = 311
  · rw [if_pos h, completeFrame_log]
    show s.log.calls ++ _ = s.log.calls ∨ _ ∧ s.log.calls ++ _ = _
    split
    · exact .inr ⟨h, rfl⟩
    · exact .inl (List.append_nil _)
  · exact .inl (by rw [if_neg h]; rfl)

/-- Of the records a line emission touches the calls alone. -/
theorem emitLine_log (s : State) : s.emitLine.log = { s.log with calls := s.emitLine.log.calls } := by
  rw [emitLine_eq]
  split
  · rw [completeFrame_log]; rfl
  · rfl

theorem emitLine_run (s : State) : s.emitLine.cpu.run = s.cpu.run := by
  rw [emitLine_eq]
  split
  · exact (completeFrame_spec _).2.2.1
  · rfl

/-- After a chunk's run: short of the line's end only `TPHASE` moves; at the line's end the line is emitted. -/
theorem chunkStore_eq (s : State) (rem c : Nat) :
    s.chunkStore rem c =
      if s.tap.tphase + c = 224 then
        State.emitLine { s with
          tap.tphase := 0
          env.pWork := if 0 < rem - c then .chunk (rem - c) :: s.env.pWork else s.env.pWork }
      else { s with
        tap.tphase := s.tap.tphase + c
        env.pWork := if 0 < rem - c then .chunk (rem - c) :: s.env.pWork else s.env.pWork } := rfl

/-- A chunk: its run, then the fault the count raises or the rest (rules R150, R128, R129). -/
theorem doChunk_eq {s : State} {rem : Nat} (h : 0 < rem) :
    s.doChunk rem = match countFault (s.chunkLength rem) s.drawRun.1.count with
      | some f => (s.afterRun (s.chunkLength rem) (.chunk rem)).raise f
      | none => (s.afterRun (s.chunkLength rem) (.chunk rem)).chunkStore rem (s.chunkLength rem) := by
  unfold State.doChunk
  rw [if_neg (by omega), cpuRun_eq]
  all_goals rfl

end Sys2Proof.Machine
end

