-- ==== Sys2Proof/Laws/Render.lean ====
section
/-!
SUPPORT. The renderer's indices, gains and parameters are in range (rules R61, R185, R189, R8), and what a rendered frame
holds at an index.
-/
namespace Sys2Proof.Machine

/-- Element `i` of a table is the function's value at `i`. -/
@[simp] theorem tabulate_getElem {α : Type} (n : Nat) (f : Nat → α) (i : Nat) (h : i < n) : (tabulate n f)[i] = f i := by
  simp [tabulate, Vector.getElem_mk]

/-- The lower line is one of the 312 (rule R186). -/
theorem lineBelow_le {i : Nat} (h : i < 320) : lineBelow i ≤ 311 := by
  unfold lineBelow
  omega

/-- The upper line is clamped at the last (rule R186). -/
theorem lineAbove_le (i : Nat) : lineAbove i ≤ 311 := by
  unfold lineAbove
  omega

theorem lineFraction_lt (i : Nat) : lineFraction i < 40 := by
  unfold lineFraction
  omega

/-- The interpolated count stays between 0 and 224, so 40 times it less 4480 stays within 4480 (rules R186, R190). -/
theorem centred_natAbs_le {F : LineFrame} {i : Nat} (h : i < 320) (hF : ∀ k, k < 312 → F.entry k ≤ 224) :
    (centred F i).natAbs ≤ 4480 := by
  have h1 := hF (lineBelow i) (by have := lineBelow_le h; omega)
  have h2 := hF (lineAbove i) (by have := lineAbove_le i; omega)
  have h3 := lineFraction_lt i
  unfold centred
  generalize F.entry (lineBelow i) = x at *
  generalize F.entry (lineAbove i) = y at *
  generalize lineFraction i = r at *
  have e : (40 * (x : Int) + r * ((y : Int) - x) - 4480) = ((40 - r) * x + r * y) - 4480 := by ring
  have p1 : (0 : Int) ≤ (40 - r) * x := by apply mul_nonneg <;> omega
  have p2 : (40 - (r : Int)) * x ≤ (40 - r) * 224 := by apply mul_le_mul_of_nonneg_left <;> omega
  have p3 : (0 : Int) ≤ (r : Int) * y := by positivity
  have p4 : (r : Int) * y ≤ r * 224 := by apply mul_le_mul_of_nonneg_left <;> omega
  omega

/-- The gain numerator never exceeds the fade length (rule R189). -/
theorem fadeGain_le {fade : Nat} (i : Nat) (h1 : 1 ≤ fade) (h2 : fade ≤ 160) : fadeGain fade i ≤ fade := by
  unfold fadeGain
  split
  · omega
  · split <;> omega

/-- The open parameters are in the ranges of rule R8. -/
theorem fade_range : 1 ≤ Config.fade ∧ Config.fade ≤ 160 := by
  unfold Config.fade
  omega

theorem peak_range : 1 ≤ Config.peak ∧ Config.peak ≤ 32767 := by
  unfold Config.peak
  omega

theorem volReset_le : Config.volReset ≤ 10 := by
  unfold Config.volReset
  omega

theorem keyHoldFrames_pos : 1 ≤ Config.keyHoldFrames := by
  unfold Config.keyHoldFrames
  omega

/-- An all-or-nothing frame has entries of at most 224 (rule R135). -/
theorem allOrNothing_le {F : LineFrame} (h : AllOrNothing F) : ∀ k, k < 312 → F.entry k ≤ 224 := by
  intro k hk
  rcases h k hk with h | h <;> omega

end Sys2Proof.Machine
end

