-- ==== Sys2Proof/Laws/Run.lean ====
section
/-!
SUPPORT. What the next turn is, in each of its cases, and what a turn and a run of several steps come to.
-/
namespace Sys2Proof.Machine

/-! ### The next turn -/

/-- The draw changes the counter of draws alone. -/
theorem drawAgent_eq (s : State) : ∃ n, s.drawAgent.2 = { s with env.draws := n } := by
  unfold State.drawAgent
  split
  · exact ⟨_, rfl⟩
  · exact ⟨_, rfl⟩
  · exact ⟨_, rfl⟩

/-- An agent that alone has anything to issue is drawn. -/
theorem drawAgent_alone {s : State} {g : Agent} (hr : s.cpu.run = none) (hm : s.movers = [g]) : s.drawAgent = (g, s) := by
  simp only [State.drawAgent, hr, hm]

/-- Inside a run the CPU unit moves. -/
theorem drawAgent_inRun {s : State} {r : Run} (hr : s.cpu.run = some r) : s.drawAgent = (.c, s) := by
  simp only [State.drawAgent, hr]

/-- The step is the turn of the agent that alone has anything to issue. -/
theorem step_alone {s : State} {g : Agent} (hr : s.cpu.run = none) (hm : s.movers = [g]) : step s = stepAs g s := by
  rw [step, drawAgent_alone hr hm]

/-- An agent in the middle of a composite carries on with it. -/
theorem fetchAs_work {s : State} {g : Agent} {k : Task} {ks : List Task} (hr : s.cpu.run = none)
    (hw : s.workOf g = k :: ks) : s.fetchAs g = (turnOfTask k, { s with env.issuer := g }.putWork g ks) := by
  simp only [State.fetchAs, hr, State.turnOf, hw]

/-- An agent between composites issues its next command. -/
theorem fetchAs_cmd {s : State} {g : Agent} {c : Cmd} {cs : List Cmd} (hr : s.cpu.run = none) (hw : s.workOf g = [])
    (hc : s.env.cmds.of g = c :: cs) :
    s.fetchAs g = (turnOfCmd c, { s with env.issuer := g, env.cmds := s.env.cmds.put g cs }) := by
  simp only [State.fetchAs, hr, State.turnOf, hw, hc]

/-- An agent with nothing to issue lets its turn pass. -/
theorem fetchAs_idle {s : State} {g : Agent} (hr : s.cpu.run = none) (hw : s.workOf g = [])
    (hc : s.env.cmds.of g = []) : s.fetchAs g = (.idle, { s with env.issuer := g }) := by
  simp only [State.fetchAs, hr, State.turnOf, hw, hc]

/-- Inside a run the CPU unit issues its next command. -/
theorem fetch_inRun {s : State} {r : Run} {c : Cmd} {cs : List Cmd} (hr : s.cpu.run = some r) (ho : r.ops = c :: cs) :
    s.fetch = (turnOfCmd c, { s with cpu.run := some { r with ops := cs }, env.issuer := .c }) := by
  simp [State.fetch, drawAgent_inRun hr, State.fetchAs, hr, State.turnInRun, ho, State.popRunOp]

/-- Inside a run with no command left the call returns. -/
theorem fetch_runOver {s : State} {r : Run} (hr : s.cpu.run = some r) (ho : r.ops = []) :
    s.fetch = (.runReturns, s) := by
  simp only [State.fetch, drawAgent_inRun hr, State.fetchAs, hr, State.turnInRun, ho]

/-- The step is the turn fetched. -/
theorem step_eq (s : State) : step s = takeTurn s.fetch := rfl

/-- A turn that names an operation is `exec` of it. -/
theorem takeTurn_op (i : Instr) (t : State) : takeTurn (.op i, t) = exec i t := rfl

/-- A turn that is a part of a composite. -/
theorem takeTurn_task (k : Task) (t : State) : takeTurn (.task k, t) = .next (t.doTask k) := rfl

/-- The step in which an agent issues an operation, or carries out a part of a composite that is one. -/
theorem stepAs_op {s t : State} {g : Agent} {i : Instr} (h : s.fetchAs g = (.op i, t)) : stepAs g s = exec i t := by
  rw [stepAs, h, takeTurn_op]

/-- The step in which an agent carries out any other part of a composite. -/
theorem stepAs_task {s t : State} {g : Agent} {k : Task} (h : s.fetchAs g = (.task k, t)) :
    stepAs g s = .next (t.doTask k) := by
  rw [stepAs, h, takeTurn_task]

/-- The state in which a turn is taken differs from `s` in the environment, and in the list of commands of the run in
progress, alone. -/
theorem fetchAs_frame (g : Agent) (s : State) :
    (s.fetchAs g).2.lat = s.lat ∧ (s.fetchAs g).2.frm = s.frm ∧ (s.fetchAs g).2.err = s.err ∧
      (s.fetchAs g).2.mbx = s.mbx ∧ (s.fetchAs g).2.aud = s.aud ∧ (s.fetchAs g).2.tap = s.tap ∧
      (s.fetchAs g).2.snk = s.snk ∧ (s.fetchAs g).2.log = s.log ∧ (s.fetchAs g).2.cpu.regs = s.cpu.regs ∧
      (s.cpu.run = none → (s.fetchAs g).2.cpu.run = none) := by
  unfold State.fetchAs
  split
  · next r hr =>
    unfold State.turnInRun
    split <;> exact ⟨rfl, rfl, rfl, rfl, rfl, rfl, rfl, rfl, rfl, fun h => by simp [h] at hr⟩
  · unfold State.turnOf
    simp only
    split
    · simp
    · split <;> simp

/-- The same of the turn of the agent drawn. -/
theorem fetch_frame (s : State) :
    s.fetch.2.lat = s.lat ∧ s.fetch.2.frm = s.frm ∧ s.fetch.2.err = s.err ∧ s.fetch.2.mbx = s.mbx ∧
      s.fetch.2.aud = s.aud ∧ s.fetch.2.tap = s.tap ∧ s.fetch.2.snk = s.snk ∧ s.fetch.2.log = s.log ∧
      s.fetch.2.cpu.regs = s.cpu.regs ∧ (s.cpu.run = none → s.fetch.2.cpu.run = none) := by
  obtain ⟨n, h⟩ := drawAgent_eq s
  have := fetchAs_frame s.drawAgent.1 s.drawAgent.2
  rw [h] at this
  unfold State.fetch
  rw [h]
  exact this

/-! ### Several steps -/

@[simp] theorem run_zero (s : State) : run 0 s = .next s := rfl

/-- The host's run, one step at a time. -/
theorem core_run_next (M : Host.Core) (n : Nat) {x y : M.State} (h : M.step x = .next y) :
    M.run (n + 1) x = M.run n y := by
  simp only [Host.Core.run, h]

theorem core_run_fault (M : Host.Core) (n : Nat) {x : M.State} {f : M.Fault} (h : M.step x = .fault f) :
    M.run (n + 1) x = .fault f := by
  simp only [Host.Core.run, h]

theorem core_run_refused (M : Host.Core) (n : Nat) {x : M.State} {r : M.Refusal} (h : M.step x = .refused r) :
    M.run (n + 1) x = .refused r := by
  simp only [Host.Core.run, h]

/-- A run of one step more is the step, then the rest. -/
theorem run_eq (n : Nat) (s : State) :
    run (n + 1) s = match step s with
      | .next t => run n t
      | .fault f => .fault f
      | .refused r => .refused r := by
  cases h : step s with
  | next t => exact core_run_next core n h
  | fault f => exact core_run_fault core n h
  | refused r => exact core_run_refused core n h

/-- A first step that answers a next state leaves the rest of the run. -/
theorem run_succ {s t : State} {n : Nat} (h : step s = .next t) : run (n + 1) s = run n t := by
  rw [run_eq, h]

/-- A run is its first part followed by the rest. -/
theorem run_add {s t : State} {m n : Nat} (h : run m s = .next t) : run (m + n) s = run n t := by
  induction m generalizing s with
  | zero => cases h; simp
  | succ m ih =>
    rw [run_eq] at h
    split at h
    · next s' hs =>
      rw [show m + 1 + n = m + n + 1 by omega, run_succ hs]
      exact ih h
    · cases h
    · cases h

/-- A run under a schedule, one turn at a time. -/
theorem runAs_cons {s t : State} {g : Agent} (gs : List Agent) (h : stepAs g s = .next t) :
    runAs (g :: gs) s = runAs gs t := by
  simp only [runAs, h]

/-- A run under a schedule is its first part followed by the rest. -/
theorem runAs_append {s t : State} {gs hs : List Agent} (h : runAs gs s = .next t) :
    runAs (gs ++ hs) s = runAs hs t := by
  induction gs generalizing s with
  | nil => cases h; rfl
  | cons g gs ih =>
    rw [runAs] at h
    split at h
    · next u hu => rw [List.cons_append, runAs_cons _ hu]; exact ih h
    · cases h
    · cases h

end Sys2Proof.Machine
end

