-- ==== Sys2Proof/Tests/Slice0.lean ====
section
/-!
SUPPORT. Checks of our own work: the shape checks of WellFormed, the words of section 2.1 of spec/95_test_vectors.md, one
or two single steps per operation with the results of sections 2.2 to 2.10 and the programs there, and for every
statement with hypotheses a state that meets them.
-/
namespace Sys2Proof.Tests

open Sys2Proof Sys2Proof.Machine

/-! ### Small states -/

/-- The reset state in the turn of agent `g`. -/
def onTurn (g : Agent) : State := { State.reset with env.issuer := g }

/-- Inside a `Cpu.run` call with the commands `ops` still to come. -/
def inRun (ops : List Cmd) : State :=
  { onTurn .c with
    cpu.run := some { asked := 224, user := .line true, ops := ops, count := 224, regs := zeroRegs } }

/-- The primary context at scanline `n`. -/
def atLine (n : Nat) : State := { onTurn .p with frm.line := n, frm.fcyc := 224 * n }

/-- The primary context with the tape sequencer at `st`. -/
def atTape (st : TState) : State := { onTurn .p with tap.tst := st }

/-- The audio context at position `ph`. -/
def atPhase (ph : APhase) : State := { onTurn .a with aud.aph := ph }

/-- The next `Cpu.run` call issues these commands and returns `n`. -/
def answering (s : State) (ops : List Cmd) (n : Nat) : State :=
  { s with env.runs := [{ ops := ops, count := n, regs := zeroRegs }] }

/-- Registers with interrupts enabled and the given mode. -/
def interruptible (m : IntMode) : CpuRegs := { zeroRegs with iff1 := true, im := m }

/-- The port writes 0xFE <- 0x10 and 0xFE <- 0x00. -/
def raiseBeeper : Cmd := ⟨0x0100FE10#32, []⟩
def lowerBeeper : Cmd := ⟨0x0100FE00#32, []⟩

/-- The tape image `02 00 FF A5` of program P3. -/
def imageP3 : List Byte := [0x02#8, 0x00#8, 0xFF#8, 0xA5#8]

/-- The image of program P3 loaded. -/
def loadedP3 (s : State) : State := { s with tap.timg := imageP3, tap.tblk := [(2, 2)] }

/-- Agent `g` has these commands to issue. -/
def scripted (s : State) (g : Agent) (cs : List Cmd) : State := { s with env.cmds := s.env.cmds.put g cs }

/-- What is asked of the next state, if there is one. -/
def seenAfter {α : Type} (f : State → α) : Host.Outcome State Fault Refusal → Option α
  | .next t => some (f t)
  | .fault _ => none
  | .refused _ => none

/-- The reasons of the refusals reported. -/
def refusals (s : State) : List Why := s.log.refused.map RefusedCmd.why

/-! ### Well-formedness: every check refuses an ill-formed term -/

theorem test_wellFormed_pulse_width_zero : (Instr.pulse 0#16).wellFormed = false := by decide
theorem test_wellFormed_pulse_bounds :
    (Instr.pulse 1#16).wellFormed = true ∧ (Instr.pulse 65535#16).wellFormed = true := by decide
theorem test_wellFormed_setvol_above_ten :
    (Instr.setvol 11#4).wellFormed = false ∧ (Instr.setvol 15#4).wellFormed = false := by decide
theorem test_wellFormed_setvol_bounds :
    (Instr.setvol 0#4).wellFormed = true ∧ (Instr.setvol 10#4).wellFormed = true := by decide

/-! ### Words written out from the spec's encoding (section 2.1 of spec/95_test_vectors.md) -/

theorem test_decode_ports :
    decode ⟨0x0100FE10#32, []⟩ = .ok (.portw 0x00FE#16 0x10#8) ∧ decode ⟨0x027FFE00#32, []⟩ = .ok (.portr 0x7FFE#16) := by
  decide

theorem test_decode_frame_family :
    decode ⟨0x10000001#32, []⟩ = .ok (.line true) ∧ decode ⟨0x10000000#32, []⟩ = .ok (.line false) ∧
      decode ⟨0x11000000#32, []⟩ = .ok .eof ∧ decode ⟨0x12000001#32, []⟩ = .ok (.frame true) ∧
      decode ⟨0x12000000#32, []⟩ = .ok (.frame false) ∧ decode ⟨0x13000000#32, []⟩ = .ok .steady := by
  decide

theorem test_decode_tape_family :
    decode ⟨0x20000000#32, imageP3⟩ = .ok (.tload imageP3) ∧ decode ⟨0x21000000#32, []⟩ = .ok .tboot ∧
      decode ⟨0x22087800#32, []⟩ = .ok (.pulse 2168#16) ∧ decode ⟨0x22029B00#32, []⟩ = .ok (.pulse 667#16) ∧
      decode ⟨0x2202DF00#32, []⟩ = .ok (.pulse 735#16) ∧ decode ⟨0x22035700#32, []⟩ = .ok (.pulse 855#16) ∧
      decode ⟨0x23000100#32, []⟩ = .ok (.tblock 1#16) ∧ decode ⟨0x24000000#32, []⟩ = .ok .tpause ∧
      decode ⟨0x25000000#32, imageP3⟩ = .ok (.tplay imageP3) := by
  decide

theorem test_decode_audio_family :
    decode ⟨0x30000007#32, []⟩ = .ok (.setvol 7#4) ∧ decode ⟨0x31000000#32, []⟩ = .ok .post ∧
      decode ⟨0x32000000#32, []⟩ = .ok .take ∧ decode ⟨0x33000000#32, []⟩ = .ok .render ∧
      decode ⟨0x34000000#32, []⟩ = .ok .submit ∧ decode ⟨0x35000000#32, []⟩ = .ok .wait ∧
      decode ⟨0x36000000#32, []⟩ = .ok .flip ∧ decode ⟨0x37000000#32, []⟩ = .ok .aperiod ∧
      decode ⟨0x38000000#32, []⟩ = .ok .sinkdone := by
  decide

theorem test_decode_system_family :
    decode ⟨0xF0000000#32, []⟩ = .ok .preset ∧ decode ⟨0xF1000000#32, []⟩ = .ok .mreset ∧
      decode ⟨0xF2000000#32, []⟩ = .ok .lasterr := by
  decide

theorem test_decode_refuses :
    decode ⟨0x00000000#32, []⟩ = .error .reservedOp ∧ decode ⟨0x03000000#32, []⟩ = .error .reservedOp ∧
      decode ⟨0x14000000#32, []⟩ = .error .reservedOp ∧ decode ⟨0x39000000#32, []⟩ = .error .reservedOp ∧
      decode ⟨0xFF000000#32, []⟩ = .error .reservedOp ∧ decode ⟨0x10000002#32, []⟩ = .error .unusedBits ∧
      decode ⟨0x11000100#32, []⟩ = .error .unusedBits ∧ decode ⟨0x02FFFE01#32, []⟩ = .error .unusedBits ∧
      decode ⟨0x30000017#32, []⟩ = .error .unusedBits ∧ decode ⟨0x31000000#32, imageP3⟩ = .error .imageNotTaken := by
  decide

/-- The words that decode to an operand out of range are refused by the operation: `PULSE 0`, `SETVOL 11`. -/
theorem test_decodeTableWord :
    decodeTableWord 32 0x2206AE00 = some (.pulse 1710#16) ∧ decodeTableWord 32 0x22000000 = some (.pulse 0#16) ∧
      decodeTableWord 32 0x3000000B = some (.setvol 11#4) ∧ decodeTableWord 32 0x39000000 = none := by
  decide

/-! ### Port interface (section 2.2) -/

theorem test_portw_clears_beeper_keeps_seen :
    seenAfter (fun t => (t.lat.beep, t.frm.seen, t.lat.border))
      (exec (.portw 0x00FE#16 0xEF#8) { inRun [] with lat.beep := true, frm.seen := true }) =
      some (false, true, 7#3) := by decide

theorem test_portw_odd_port_ignored :
    seenAfter (fun t => (t.lat.beep, t.frm.seen)) (exec (.portw 0x00FF#16 0x10#8) (inRun [])) =
      some (false, false) := by decide

theorem test_portr_ear_and_keyboard :
    seenAfter (fun t => t.log.returns)
      (exec (.portr 0xFEFE#16) { inRun [] with lat.ear := true, env.reads := [⟨0x1E#5, false, true⟩] }) =
      some [(.c, .byte 0xDE#8)] := by decide

theorem test_portr_outside_a_run_refused :
    seenAfter refusals (exec (.portr 0xFEFE#16) (onTurn .c)) = some [.outsideRun] := by decide

/-! ### Frame accumulator (section 2.3) -/

theorem test_line_high_for_a_portion :
    seenAfter (fun t => (t.frm.acc.entry 7, t.lat.beep, t.frm.line, t.frm.fcyc))
      (exec (.line true) (answering (atLine 7) [raiseBeeper, lowerBeeper] 224)) = some (224, false, 8, 1792) := by
  decide +kernel

theorem test_line_wrong_count_faults :
    seenAfter (fun t => (t.err.fault, t.err.fcode.number, t.frm.line)) (exec (.line true) (answering (atLine 7) [] 220)) =
      some (true, 6, 7) := by decide

theorem test_eof_requests_interrupt_in_mode_one :
    seenAfter (fun t => (t.log.calls.length, t.frm.line, t.frm.fcyc))
      (exec .eof { atLine 312 with cpu.regs := interruptible .im1 }) = some (1, 0, 0) := by decide

theorem test_eof_drops_interrupt_in_mode_two :
    seenAfter (fun t => (t.log.calls.length, t.frm.line)) (exec .eof { atLine 312 with cpu.regs := interruptible .im2 }) =
      some (0, 0) := by decide

theorem test_frame_in_mid_frame_refused : seenAfter refusals (exec (.frame true) (atLine 5)) = some [.position] := by
  decide

theorem test_frame_parts :
    seenAfter (fun t => (t.env.pWork.length, t.env.pWork[311]?, t.env.pWork[312]?)) (exec (.frame false) (atLine 0)) =
      some (313, some (.op (.line false)), some (.op .eof)) := by decide +kernel

theorem test_steady_parts :
    seenAfter (fun t => t.env.pWork) (exec .steady (atLine 0)) = some [.op (.frame true), .op .post] := by decide

/-! ### Tape parser and pulse lists (sections 2.4, 2.5) -/

theorem test_parse_errors :
    parseTape [0x00#8] = .error .tapeTrunc ∧ parseTape [0x02#8, 0x00#8, 0xFF#8, 0xA5#8, 0x13#8] = .error .tapeTrunc ∧
      parseTape [0x05#8, 0x00#8, 0xFF#8, 0x01#8] = .error .tapeLen ∧
      parseTape [0x00#8, 0x00#8] = .error .tapeFraming ∧ parseTape [0x01#8, 0x00#8, 0x7F#8] = .error .tapeFraming ∧
      parseTape [0x00#8, 0x00#8, 0x05#8] = .error .tapeFraming := by decide

theorem test_parse_blocks :
    parseTape [] = .ok [] ∧ parseTape imageP3 = .ok [(2, 2)] ∧
      parseTape [0x01#8, 0x00#8, 0x00#8, 0x01#8, 0x00#8, 0xFF#8] = .ok [(2, 1), (5, 1)] := by decide

theorem test_tload_keeps_the_block :
    seenAfter (fun t => (t.tap.tblk, t.err.terr, t.log.returns))
      (exec (.tload imageP3) { atTape .idle with env.allocs := [true] }) =
      some ([(2, 2)], .none, [(.p, .bool true)]) := by decide

theorem test_tload_out_of_memory :
    seenAfter (fun t => (t.tap.timg.length, t.tap.tblk, t.err.terr))
      (exec (.tload [0x01#8, 0x00#8, 0x00#8]) { loadedP3 (atTape .idle) with env.allocs := [false] }) =
      some (4, [], .noMem) := by decide

/-- Entries 3222 to 3229 of the pulse list of block `FF A5`, and its last. -/
theorem test_pulse_list :
    (List.range 8).map (fun k => pulseAt [0xFF#8, 0xA5#8] (3222 + k)) =
      [2168, 667, 735, 1710, 1710, 1710, 1710, 1710] ∧
      (List.range 16).map (fun k => pulseAt [0xFF#8, 0xA5#8] (3241 + k)) =
      [1710, 1710, 855, 855, 1710, 1710, 855, 855, 855, 855, 1710, 1710, 855, 855, 1710, 1710] ∧
      pulseCount [0xFF#8, 0xA5#8] = 3257 ∧ pulseCount [0x00#8] = 8081 := by decide

/-! ### Pulses and blocks (section 2.6) -/

theorem test_pulse_toggles :
    seenAfter (fun t => (t.lat.ear, t.env.pWork)) (exec (.pulse 667#16) (atLine 0)) = some (true, [.chunk 667]) := by decide

theorem test_pulse_zero_refused : seenAfter refusals (exec (.pulse 0#16) (atLine 0)) = some [.operand] := by decide

/-- The arguments of `Cpu.run` for `PULSE 667` from reset, then `PULSE 735`; and for `PULSE 2168` twice. -/
theorem test_pulse_runs :
    pulseRuns 0 667 = [224, 224, 219] ∧ pulseRuns 219 735 = [5, 224, 224, 224, 58] ∧
      pulseRuns 0 2168 = [224, 224, 224, 224, 224, 224, 224, 224, 224, 152] ∧
      pulseRuns 152 2168 = [72, 224, 224, 224, 224, 224, 224, 224, 224, 224, 80] ∧ pulseRuns 0 100 = [100] ∧
      pulseRuns 100 124 = [124] := by decide

/-- Line 2 ends 5 cycles into the low pulse and takes its level. -/
theorem test_chunk_to_the_line_end :
    (fun t : State => (t.tap.tacc.entry 2, t.tap.tln, t.tap.tphase, t.env.pWork, t.log.calls))
      ((answering { atLine 0 with tap.tphase := 219, tap.tln := 2, tap.tacc := Vector.replicate 312 224 } [] 5).doTask
        (.chunk 735)) = (0, 3, 0, [.chunk 730], [.run 5]) := by
  decide +kernel

theorem test_tblock_index_out_of_range_refused :
    seenAfter refusals (exec (.tblock 1#16) (loadedP3 (atLine 0))) = some [.operand] := by decide

theorem test_tblock_plays_the_first_sync_pulse :
    (fun t : State => (t.lat.ear, t.tap.tpi, t.env.pWork)) ((loadedP3 (atLine 0)).doTask (.blockPulse 3223)) =
      (true, 3223, [.chunk 667, .blockPulse 3224]) := by decide

theorem test_tpause_lowers_ear :
    seenAfter (fun t => (t.lat.ear, t.tap.tphase)) (exec .tpause { atLine 0 with lat.ear := true, tap.tphase := 10 }) =
      some (false, 10) := by decide

theorem test_tboot_begins_with_a_null_frame :
    seenAfter (fun t => (t.env.pWork[0]?, t.env.pWork[199]?)) (exec .tboot (atLine 0)) =
      some (some (.op (.frame false)), some (.op (.frame false))) := by rfl

theorem test_tplay_during_a_load_refused :
    seenAfter refusals (exec (.tplay []) (atTape .pulses)) = some [.position] := by decide

theorem test_tplay_begins_with_the_machine_reset :
    seenAfter (fun t => t.env.pWork) (exec (.tplay imageP3) (atTape .idle)) =
      some [.op .mreset, .playLoad imageP3] := by decide

/-! ### Rendering (sections 2.7, 2.8 and program P1), with PEAK = 10000 and FADE = 48 -/

/-- The frame of program P1: scanlines 100 to 200 high. -/
def frameP1 : LineFrame := tabulate 312 fun k => if 100 ≤ k ∧ k ≤ 200 then 224 else 0

theorem test_steady_samples_of_P1 :
    [1, 47, 48, 102, 103, 206, 272, 318].map (steadySample 10000 48 10 frameP1) =
      [-208, -9791, -10000, -1000, 10000, -7000, -9791, -208] := by decide

/-- The alternating frame: even lines 224, odd lines 0. -/
theorem test_steady_samples_of_the_alternating_frame :
    [48, 49, 80, 81, 100, 271, 272].map (steadySample 10000 48 10 (tabulate 312 fun k => if k % 2 = 0 then 224 else 0)) =
      [-6000, 5500, 10000, -9500, 0, 5500, -5875] := by decide

/-- 100 lines of 224, then 212 lines of 0, at `VOL` = 10 and `VOL` = 5. -/
def frameTape : LineFrame := tabulate 312 fun k => if k < 100 then 224 else 0

theorem test_tape_samples :
    [0, 1, 101, 102, 103, 104, 319].map (tapeSample 10000 (tapeLevel 10) frameTape 0) =
      [4000, 8000, 8000, 4400, -3600, -8000, -8000] ∧
      [0, 102, 103].map (tapeSample 10000 (tapeLevel 5) frameTape 0) = [1500, 1650, -1350] := by decide

theorem test_tape_carry :
    tapeSample 10000 (tapeLevel 10) frameTape (-8000) 0 = 0 ∧ tapeUnsmoothed 10000 (tapeLevel 10) frameTape 319 = -8000 ∧
      tapeSample 10000 (tapeLevel 1) frameTape 0 1 = 0 := by decide

/-! ### Mailbox and double buffer (section 2.9) -/

theorem test_setvol : seenAfter (fun t => t.aud.vol) (exec (.setvol 7#4) (onTurn .h)) = some 7 := by decide
theorem test_setvol_eleven_refused : seenAfter refusals (exec (.setvol 11#4) (onTurn .h)) = some [.operand] := by decide

theorem test_post_overwrites :
    seenAfter (fun t => (t.mbx.mb.entry 311, t.mbx.ready, t.mbx.src))
      (exec .post { atLine 0 with frm.acc := Vector.replicate 312 224, mbx.ready := true, mbx.src := .tape }) =
      some (224, true, .beeper) := by decide
theorem test_post_in_mid_frame_refused : seenAfter refusals (exec .post (atLine 5)) = some [.position] := by decide

theorem test_take_a_frame :
    seenAfter (fun t => (t.aud.cur.entry 0, t.aud.curSrc, t.aud.curValid, t.mbx.ready, t.mbx.mb.entry 0))
      (exec .take { atPhase .take with mbx.mb := Vector.replicate 312 224, mbx.ready := true, mbx.src := .tape }) =
      some (224, .tape, true, false, 224) := by decide
theorem test_take_nothing :
    seenAfter (fun t => (t.aud.curValid, t.aud.aph)) (exec .take { atPhase .take with aud.curValid := true }) =
      some (false, .render) := by decide

theorem test_render_silence :
    seenAfter (fun t => (t.aud.pcm[0][5], t.aud.pcm[1][5], t.aud.sprev, t.aud.aph))
      (exec .render { atPhase .render with
        aud.pcm := Vector.replicate 2 (Vector.replicate 320 9), aud.sprev := -8000 }) = some (0, 9, 0, .submit) := by decide
theorem test_render_out_of_phase_refused : seenAfter refusals (exec .render (atPhase .take)) = some [.position] := by decide

theorem test_submit_active_buffer :
    seenAfter (fun t => (t.snk.sq.length, t.snk.out.map fun f => f[0], t.aud.aph))
      (exec .submit { atPhase .submit with
        aud.ab := 1, aud.pcm := (Vector.replicate 2 (Vector.replicate 320 0)).set 1 (Vector.replicate 320 7) }) =
      some (1, [7], .wait) := by decide

theorem test_wait_held :
    seenAfter (fun t => (t.aud.aph, t.env.aWork))
      (exec .wait (scripted { atPhase .wait with snk.sq := [silence, silence] } .s [⟨0x38000000#32, []⟩])) =
      some (.wait, [.op .wait]) := by decide
theorem test_wait_passes :
    seenAfter (fun t => t.aud.aph) (exec .wait { atPhase .wait with snk.sq := [silence] }) = some .flip := by decide

theorem test_flip :
    seenAfter (fun t => (t.aud.ab, t.aud.aph)) (exec .flip { atPhase .flip with aud.ab := 1 }) = some (0, .take) := by decide
theorem test_aperiod_parts :
    seenAfter (fun t => t.env.aWork) (exec .aperiod (atPhase .take)) =
      some [.op .take, .op .render, .op .submit, .op .wait, .op .flip] := by decide

theorem test_sinkdone_takes_the_oldest :
    seenAfter (fun t => (t.snk.sq.map fun f => f[0], t.sinkIsPlaying))
      (exec .sinkdone { onTurn .s with snk.sq := [Vector.replicate 320 1, Vector.replicate 320 2] }) =
      some ([2], true) := by decide
theorem test_sinkdone_with_nothing_playing_refused :
    seenAfter refusals (exec .sinkdone (onTurn .s)) = some [.position] := by decide

/-! ### System operations (section 2.10) -/

theorem test_preset_clears_the_fault :
    seenAfter (fun t => (t.err, t.frm.line, t.aud.ab, t.snk.out))
      (exec .preset { onTurn .h with err := ⟨true, .cpuZero, .noMem⟩, frm.line := 3, aud.ab := 1, snk.out := [silence] }) =
      some (⟨false, .none, .none⟩, 0, 0, []) := by decide

theorem test_mreset_keeps_the_rest :
    seenAfter (fun t => (t.frm.line, t.lat.beep, t.lat.ear, t.frm.acc.entry 99, t.aud.vol, t.mbx.ready))
      (exec .mreset { atLine 100 with
        lat.beep := true, lat.ear := true, frm.acc := Vector.replicate 312 224, aud.vol := 4, mbx.ready := true }) =
      some (0, false, false, 224, 4, true) := by decide
theorem test_mreset_during_a_load_refused : seenAfter refusals (exec .mreset (atTape .pulses)) = some [.position] := by
  decide

theorem test_lasterr :
    seenAfter (fun t => t.log.returns) (exec .lasterr { onTurn .h with err := ⟨false, .none, .tapeLen⟩ }) =
      some [(.h, .code .tapeLen)] ∧
    seenAfter (fun t => t.log.returns) (exec .lasterr { onTurn .h with err := ⟨true, .cpuCount, .tapeLen⟩ }) =
      some [(.h, .code .cpuCount)] := by decide

/-- Inside a run a read of 0x7FFE returns `EAR` in bit 6 (the example of rule R116), and a `POST` is refused (rule R88). -/
theorem test_line_records_its_run :
    seenAfter (fun t => (t.log.returns.map fun x => match x.2 with
        | .byte b => b.getLsbD 6
        | .bool _ => false
        | .code _ => false, refusals t, t.mbx.ready))
      (exec (.line true) { answering (atLine 0) [⟨0x027FFE00#32, []⟩, ⟨0x31000000#32, []⟩] 224 with
        lat.ear := true, env.reads := [⟨0#5, false, false⟩] }) = some ([true], [.wrongAgent], false) := by
  decide +kernel

/-- Program P4: the `TLOAD` inside the `TPLAY` returns false, and `TPLAY` passes it on. -/
theorem test_tplay_passes_false_on :
    (let t := { atTape .idle with env.allocs := [true] }.doTask (.playLoad [0x05#8, 0x00#8, 0xFF#8, 0x01#8])
     (t.log.returns, t.err.terr)) = ([(.p, .bool false), (.p, .bool false)], .tapeLen) := by decide

/-! ### One step -/

theorem test_step_runs_the_placed_word :
    seenAfter (fun t => t.mbx.ready) (step (State.reset.withFetchWord 32 0x31000000)) = some true ∧
      seenAfter (fun t => (t.lat.beep, t.frm.seen)) (step (State.reset.withFetchWord 32 0x0100FE10)) = some (true, true) ∧
      seenAfter refusals (step (State.reset.withFetchWord 32 0x11000000)) = some [.position] := by decide

/-! ### A state that meets the hypotheses of each statement, one for each clause -/

theorem witness_EncodeInvertsDecode : decode ⟨0x2206AE00#32, []⟩ = .ok (.pulse 1710#16) := by decide

theorem witness_StepRunsTheNextCommand :
    let s := scripted State.reset .p [⟨0x31000000#32, []⟩]
    s.cpu.run = none ∧ s.workOf .p = [] ∧ s.env.cmds.of .p = [⟨0x31000000#32, []⟩] ∧
      decode ⟨0x31000000#32, []⟩ = .ok .post ∧ s.movers = [.p] ∧ MovesAlone [.p] s := by
  exact ⟨rfl, rfl, rfl, by decide, rfl, rfl, rfl, fun _ _ => trivial⟩

theorem witness_StepInsideARunIsTheCpuUnits :
    (∃ r, (inRun [raiseBeeper]).cpu.run = some r ∧ r.ops = [raiseBeeper] ∧
      decode raiseBeeper = .ok (.portw 0x00FE#16 0x10#8)) ∧
    (∃ r, (inRun []).cpu.run = some r ∧ r.ops = []) :=
  ⟨⟨_, rfl, rfl, by decide⟩, ⟨_, rfl, rfl⟩⟩

theorem witness_TurnsWithoutAnOperationChangeNothing :
    (let s := scripted State.reset .h [⟨0x39000000#32, []⟩]
     s.cpu.run = none ∧ s.workOf .h = [] ∧ s.env.cmds.of .h = [⟨0x39000000#32, []⟩] ∧
      decode ⟨0x39000000#32, []⟩ = .error .reservedOp) ∧
    (let s := scripted State.reset .s []
     s.cpu.run = none ∧ s.workOf .s = [] ∧ s.env.cmds.of .s = []) := by
  refine ⟨⟨rfl, rfl, rfl, by decide⟩, rfl, rfl, rfl⟩

theorem witness_StepCarriesOnWithAComposite :
    (let s : State := { State.reset with env.pWork := [.op .eof] }
     s.cpu.run = none ∧ s.workOf .p = [.op .eof]) ∧
    (let s : State := { State.reset with env.pWork := [.chunk 5] }
     s.cpu.run = none ∧ s.workOf .p = [.chunk 5] ∧ ∀ i, Task.chunk 5 ≠ .op i) := by
  refine ⟨⟨rfl, rfl⟩, rfl, rfl, fun i h => by cases h⟩

/-- The alternative of a stuck `WAIT` occurs. -/
theorem witness_OnlyAStuckWaitStopsTheMachine :
    seenAfter (fun _ => ()) (exec .wait { atPhase .wait with snk.sq := [silence, silence] }) = none ∧
      seenAfter (fun _ => ()) (exec .wait { atPhase .wait with snk.sq := [silence] }) = some () := by decide

/-- `FAULT` = 1; an agent not listed, for `PRESET` and `LASTERR` too; and, with neither, every operation that can be out of place is so somewhere. -/
theorem witness_RefusedCommandsChangeNothing :
    (({ onTurn .p with err.fault := true } : State).err.fault = true ∧ Instr.post ≠ .preset ∧ Instr.post ≠ .lasterr) ∧
      (onTurn .a).env.issuer ∉ Instr.post.agents ∧ (onTurn .p).env.issuer ∉ Instr.preset.agents ∧
      (onTurn .a).env.issuer ∉ Instr.lasterr.agents ∧
      (onTurn .c).OutOfPlace (.portw 0#16 0#8) ∧ (onTurn .c).OutOfPlace (.portr 0#16) ∧
      (atLine 312).OutOfPlace (.line true) ∧ (atTape .pulses).OutOfPlace (.line true) ∧ (atLine 311).OutOfPlace .eof ∧
      (atLine 1).OutOfPlace (.frame true) ∧ (atTape .pause).OutOfPlace (.frame false) ∧ (atLine 312).OutOfPlace .steady ∧
      (atTape .boot).OutOfPlace (.tload []) ∧ (atLine 1).OutOfPlace .tboot ∧ (atLine 0).OutOfPlace (.pulse 0#16) ∧
      (atLine 1).OutOfPlace (.pulse 1#16) ∧ (loadedP3 (atLine 0)).OutOfPlace (.tblock 1#16) ∧
      (loadedP3 (atLine 1)).OutOfPlace (.tblock 0#16) ∧ (atTape .boot).OutOfPlace (.tplay []) ∧
      (atLine 1).OutOfPlace (.tplay []) ∧ (onTurn .h).OutOfPlace (.setvol 11#4) ∧ (atLine 1).OutOfPlace .post ∧
      (atPhase .flip).OutOfPlace .take ∧ (atPhase .take).OutOfPlace .render ∧ (atPhase .render).OutOfPlace .submit ∧
      (atPhase .submit).OutOfPlace .wait ∧ (atPhase .wait).OutOfPlace .flip ∧ (atPhase .wait).OutOfPlace .aperiod ∧
      (onTurn .s).OutOfPlace .sinkdone ∧ (atTape .pause).OutOfPlace .mreset := by
  have h : ∀ x : TState, x = .pulses ∨ x = .pause → ¬ (atTape x).NotPlaying := by
    rintro x (rfl | rfl) ⟨h1, h2⟩
    · exact h1 rfl
    · exact h2 rfl
  refine ⟨⟨rfl, by decide, by decide⟩, by decide, by decide, by decide, rfl, rfl, .inl rfl, .inr (h _ (.inl rfl)), ?_, .inl ?_, .inr (h _ (.inr rfl)), .inl ?_, ?_, .inl ?_,
    .inl rfl, .inr ?_, .inl ?_, .inr ?_, .inl ?_, .inr ?_, ?_, ?_, ?_, ?_, ?_, ?_, ?_, ?_, rfl, ?_⟩
  all_goals first
    | exact (by decide : (311 : Nat) ≠ 312)
    | exact (by decide : (1 : Nat) ≠ 0)
    | exact (by decide : (312 : Nat) ≠ 0)
    | exact (by decide : (1 : Nat) ≤ 1)
    | exact (by decide : 10 < (11#4).toNat)
    | exact (by decide : TState.boot ≠ .idle)
    | exact (by decide : TState.pause ≠ .idle)
    | exact (by decide : APhase.flip ≠ .take)
    | exact (by decide : APhase.take ≠ .render)
    | exact (by decide : APhase.render ≠ .submit)
    | exact (by decide : APhase.submit ≠ .wait)
    | exact (by decide : APhase.wait ≠ .flip)
    | exact (by decide : APhase.wait ≠ .take)

/-- The refusals of a state in place are not empty: in each of these the operation is done. -/
theorem witness_operations_in_place :
    (seenAfter (fun t => t.log.refused.length) (exec (.line true) (answering (atLine 311) [] 224))).getD 9 = 0 ∧
      (seenAfter (fun t => t.log.refused.length) (exec .eof (atLine 312))).getD 9 = 0 := by decide +kernel

theorem inRun_ready (ops : List Cmd) : (inRun ops).MayIssue .c ∧ (inRun ops).cpu.run ≠ none :=
  ⟨⟨rfl, rfl⟩, by intro h; cases h⟩

theorem witness_EvenPortWriteSetsTheLatches :
    (inRun []).MayIssue .c ∧ (inRun []).cpu.run ≠ none ∧ (0x00FE#16).getLsbD 0 = false :=
  ⟨(inRun_ready []).1, (inRun_ready []).2, by decide⟩

theorem witness_OddPortsDoNotReachTheBlock :
    (inRun []).MayIssue .c ∧ (inRun []).cpu.run ≠ none ∧ (0x00FF#16).getLsbD 0 = true :=
  ⟨(inRun_ready []).1, (inRun_ready []).2, by decide⟩

theorem witness_EvenPortReadReturnsTheEarLatch :
    let s : State := { inRun [] with env.reads := [⟨0x1F#5, false, true⟩] }
    s.MayIssue .c ∧ s.cpu.run ≠ none ∧ (0xFEFE#16).getLsbD 0 = false ∧ s.env.reads = [⟨0x1F#5, false, true⟩] :=
  ⟨(inRun_ready []).1, (inRun_ready []).2, by decide, rfl⟩

/-- Each operation named answers a next state, a part of a composite is no chunk, a chunk's run may issue no command or raise
the beeper, and an even port can be read. -/
theorem witness_BeeperAndEarAreSeparateLatches :
    (∃ t, exec (.portw 0x00FE#16 0x10#8) (inRun []) = .next t) ∧ (∃ t, exec (.tload imageP3) (atLine 0) = .next t) ∧
      (∃ t, exec (.pulse 667#16) (atLine 0) = .next t) ∧ (∃ t, exec (.tblock 0#16) (loadedP3 (atLine 0)) = .next t) ∧
      (∃ t, exec .tpause (atLine 0) = .next t) ∧ (∃ t, exec .tboot (atLine 0) = .next t) ∧
      (∃ t, exec (.tplay imageP3) (atLine 0) = .next t) ∧ (answering (atLine 0) [] 224).drawRun.1.ops = [] ∧
      (∀ n, Task.blockPulse 0 ≠ .chunk n) ∧
      (let s := answering { atLine 0 with tap.tphase := 223 } [raiseBeeper] 1
       s.tap.tphase ≤ 223 ∧ s.err.fault = false ∧ (s.lat.afterCmds s.drawRun.1.ops).beep = true) ∧
      (inRun []).MayIssue .c ∧ (inRun []).cpu.run ≠ none ∧ (0x00FE#16).getLsbD 0 = false ∧
      (∃ t, exec (.portr 0x00FE#16) { inRun [] with lat.beep := true } = .next t) :=
  ⟨⟨_, rfl⟩, ⟨_, rfl⟩, ⟨_, rfl⟩, ⟨_, rfl⟩, ⟨_, rfl⟩, ⟨_, rfl⟩, ⟨_, rfl⟩, rfl, (fun _ h => by cases h),
    ⟨by decide, rfl, by decide⟩, (inRun_ready []).1, (inRun_ready []).2, by decide, ⟨_, rfl⟩⟩

theorem atLine_ready (n : Nat) : (atLine n).MayIssue .p ∧ (atLine n).NotPlaying :=
  ⟨⟨rfl, rfl⟩, ⟨(by intro h; cases h), (by intro h; cases h)⟩⟩

/-- A beeper raised inside the last scanline, and one low throughout. -/
theorem witness_LineCountsTheWholeScanlineOrNothing :
    (let s := answering (atLine 311) [raiseBeeper] 224
     s.MayIssue .p ∧ s.frm.line < 312 ∧ s.NotPlaying ∧ s.drawRun.1.count = 224 ∧
      ∃ c ∈ s.drawRun.1.ops, raisesBeeper c) ∧
    (let s := answering (atLine 0) [] 224
     s.MayIssue .p ∧ s.frm.line < 312 ∧ s.NotPlaying ∧ s.drawRun.1.count = 224 ∧
      ¬ (s.lat.beep = true ∨ ∃ c ∈ s.drawRun.1.ops, raisesBeeper c)) := by
  refine ⟨⟨(atLine_ready 311).1, ?_, (atLine_ready 311).2, rfl, raiseBeeper, ?_, 0x00FE#16, 0x10#8, ?_, ?_, ?_⟩,
    (atLine_ready 0).1, ?_, (atLine_ready 0).2, rfl, ?_⟩
  · exact (by decide : (311 : Nat) < 312)
  · exact List.mem_singleton.mpr rfl
  · decide
  · decide
  · decide
  · exact (by decide : (0 : Nat) < 312)
  · rintro (h | ⟨c, hc, -⟩)
    · cases h
    · cases hc

theorem witness_LineTakesTheDiagnosticCopyAtMidFrame :
    ((atLine 156).MayIssue .p ∧ (atLine 156).frm.line < 312 ∧ (atLine 156).NotPlaying ∧ (atLine 156).frm.line = 156) ∧
    ((atLine 157).MayIssue .p ∧ (atLine 157).frm.line < 312 ∧ (atLine 157).NotPlaying ∧ (atLine 157).frm.line ≠ 156) :=
  ⟨⟨(atLine_ready _).1, (by decide : (156 : Nat) < 312), (atLine_ready _).2, rfl⟩,
    ⟨(atLine_ready _).1, (by decide : (157 : Nat) < 312), (atLine_ready _).2, (by decide : (157 : Nat) ≠ 156)⟩⟩

theorem witness_LineWithoutCyclesIsFatal :
    let s := answering (atLine 7) [] 0
    s.MayIssue .p ∧ s.frm.line < 312 ∧ s.NotPlaying ∧ s.drawRun.1.count = 0 :=
  ⟨(atLine_ready 7).1, (by decide : (7 : Nat) < 312), (atLine_ready 7).2, rfl⟩

theorem witness_LineWithAWrongCountIsFatal :
    let s := answering (atLine 311) [] 225
    s.MayIssue .p ∧ s.frm.line < 312 ∧ s.NotPlaying ∧ s.drawRun.1.count ≠ 0 ∧ s.drawRun.1.count ≠ 224 :=
  ⟨(atLine_ready 311).1, (by decide : (311 : Nat) < 312), (atLine_ready 311).2, (by decide : (225 : Nat) ≠ 0),
    (by decide : (225 : Nat) ≠ 224)⟩

theorem witness_NullAccumulatorOnlyDropsTheStore :
    ((atLine 311).MayIssue .p ∧ (atLine 311).frm.line < 312 ∧ (atLine 311).NotPlaying) ∧
    ((atLine 0).MayIssue .p ∧ (atLine 0).frm.line = 0 ∧ (atLine 0).NotPlaying) :=
  ⟨⟨(atLine_ready _).1, (by decide : (311 : Nat) < 312), (atLine_ready _).2⟩, (atLine_ready _).1, rfl, (atLine_ready _).2⟩

theorem witness_EofEndsTheFrame :
    (let s : State := { atLine 312 with cpu.regs := interruptible .im1 }
     s.MayIssue .p ∧ s.frm.line = 312 ∧ s.cpu.regs.iff1 = true ∧ s.cpu.regs.im = .im1) ∧
    (let s : State := { atLine 312 with cpu.regs := interruptible .im2 }
     s.MayIssue .p ∧ s.frm.line = 312 ∧ ¬ (s.cpu.regs.iff1 = true ∧ s.cpu.regs.im = .im1)) := by
  refine ⟨⟨⟨rfl, rfl⟩, rfl, rfl, rfl⟩, ⟨rfl, rfl⟩, rfl, ?_⟩
  rintro ⟨-, h⟩
  cases h

/-- A CPU unit that keeps its contract in every run of a frame. -/
def contract (n count : Nat) : List RunAnswer := List.replicate n { ops := [], count := count, regs := zeroRegs }

theorem witness_FrameRunsToItsEnd :
    let s : State := { scripted State.reset .p [encode (.frame true)] with env.runs := contract 312 224 }
    s.cpu.run = none ∧ s.err.fault = false ∧ s.frm.line = 0 ∧ s.frm.fcyc = 0 ∧ s.NotPlaying ∧ s.env.pWork = [] ∧
      s.env.cmds.p = [encode (.frame true)] ∧
      s.env.runs = contract 312 224 ++ [] ∧ (contract 312 224).length = 312 ∧ ∀ a ∈ contract 312 224, a.count = 224 := by
  refine ⟨rfl, rfl, rfl, rfl, ⟨(by intro h; cases h), (by intro h; cases h)⟩, rfl, rfl,
    (List.append_nil _).symm, List.length_replicate, ?_⟩
  intro a h
  rw [(List.mem_replicate.mp h).2]

theorem witness_SteadyIsAFrameThenAPost :
    (atLine 0).MayIssue .p ∧ (atLine 0).frm.line = 0 ∧ (atLine 0).NotPlaying :=
  ⟨(atLine_ready 0).1, rfl, (atLine_ready 0).2⟩

/-- A good image, a bad one, and no memory. -/
theorem witness_TloadKeepsTheBlocksOrTheReason :
    (∀ b, let s : State := { atTape .idle with env.allocs := [b] }
      s.MayIssue .p ∧ s.tap.tst = .idle ∧ s.drawAlloc.1 = b) ∧
      parseTape imageP3 = .ok [(2, 2)] ∧ parseTape [0x00#8] = .error .tapeTrunc :=
  ⟨fun _ => ⟨⟨rfl, rfl⟩, rfl, rfl⟩, by decide, by decide⟩

/-- An image of one record, that record, and a payload of each kind at the shortest length. -/
theorem witness_ParsedBlocksLieInTheImage :
    parseTape imageP3 = .ok [(2, 2)] ∧ (2, 2) ∈ [(2, 2)] ∧ recordBytes (payload imageP3 (2, 2)) = imageP3 ∧
      IsPayload [0x00#8] ∧ IsPayload [0xFF#8] :=
  ⟨by decide, by decide, by decide, ⟨by decide, .inl rfl⟩, ⟨by decide, .inr rfl⟩⟩

/-- The shortest record, followed by nothing and by half a prefix. -/
theorem witness_RecordLengthIsLittleEndian :
    (1 ≤ (0x01#8).toNat + 256 * (0x00#8).toNat ∧ (0x01#8).toNat + 256 * (0x00#8).toNat ≤ [0xFF#8].length ∧
      [0xFF#8].head? = some 0xFF#8 ∧ parseFrom ([0xFF#8].drop 1) 0 3 = .ok []) ∧
    ([0x00#8, 0x05#8].head? = some 0x00#8 ∧ parseFrom ([0x00#8, 0x05#8].drop 1) 0 3 = .error .tapeTrunc) := by decide

theorem witness_ParserReportsTheFirstFailingCheck :
    [0xFF#8].length < (0x02#8).toNat + 256 * (0x00#8).toNat ∧ (0x00#8).toNat + 256 * (0x00#8).toNat = 0 ∧
      ((0x7F#8 : Byte) ≠ 0x00#8 ∧ (0x7F#8 : Byte) ≠ 0xFF#8 ∧ 1 ≤ (0x01#8).toNat + 256 * (0x00#8).toNat ∧
        (0x01#8).toNat + 256 * (0x00#8).toNat ≤ [0x7F#8].length) := by decide

theorem witness_PulsePlayedIsThePulseListed :
    3256 < pulseCount [0xFF#8, 0xA5#8] ∧ [0x00#8, 0x03#8].head? = some 0x00#8 ∧ [0xFF#8, 0xA5#8].head? = some 0xFF#8 := by
  decide

theorem witness_PulseTogglesTheEarLatch :
    (atLine 0).MayIssue .p ∧ (atLine 0).frm.line = 0 ∧ (65535#16 : BitVec 16) ≠ 0#16 :=
  ⟨(atLine_ready 0).1, rfl, by decide⟩

/-- One cycle short of the line's end; exactly to it, line 310; and past it; and runs of no cycles and of one too many. -/
theorem witness_ChunkRunsUpToTheLineBoundary :
    (let s : State := answering { atLine 0 with tap.tphase := 222 } [] 1
     s.tap.tphase ≤ 223 ∧ s.drawRun.1.count = min 1 (224 - s.tap.tphase) ∧ 1 < 224 - s.tap.tphase) ∧
    (let s : State := answering { atLine 0 with tap.tphase := 223, tap.tln := 310 } [] 1
     s.tap.tphase ≤ 223 ∧ s.drawRun.1.count = min 1 (224 - s.tap.tphase) ∧ 224 - s.tap.tphase ≤ 1 ∧ s.tap.tln ≠ 311) ∧
    (let s : State := answering (atLine 0) [] 224
     s.tap.tphase ≤ 223 ∧ s.drawRun.1.count = min 225 (224 - s.tap.tphase) ∧ 224 - s.tap.tphase ≤ 225 ∧
      s.tap.tln ≠ 311) ∧
    (let s : State := answering (atLine 0) [] 0
     s.tap.tphase ≤ 223 ∧ s.drawRun.1.count ≠ min 224 (224 - s.tap.tphase) ∧ s.drawRun.1.count = 0) ∧
    (let s : State := answering (atLine 0) [] 225
     s.tap.tphase ≤ 223 ∧ s.drawRun.1.count ≠ min 224 (224 - s.tap.tphase) ∧ s.drawRun.1.count ≠ 0) := by decide

/-- The chunk that ends at the line's end, and one that goes on past it. -/
theorem witness_TapeFrameCompletionPostsTheFrame :
    let s : State := answering { atLine 0 with tap.tln := 311, tap.tphase := 223 } [] 1
    s.tap.tln = 311 ∧ s.tap.tphase ≤ 223 ∧ 224 - s.tap.tphase ≤ 1 ∧ 224 - s.tap.tphase ≤ 5 ∧
      s.drawRun.1.count = 224 - s.tap.tphase := by decide

/-- `PULSE 667` from phase 0: runs of 224, 224 and 219 cycles. -/
theorem witness_PulseRunsToItsEnd :
    let as : List RunAnswer := contract 2 224 ++ contract 1 219
    let s : State := { scripted State.reset .p [encode (.pulse 667#16)] with env.runs := as }
    s.cpu.run = none ∧ s.err.fault = false ∧ s.frm.line = 0 ∧ (667#16 : BitVec 16) ≠ 0#16 ∧ s.tap.tphase ≤ 223 ∧
      s.tap.tln ≤ 311 ∧ s.env.pWork = [] ∧ s.env.cmds.p = [encode (.pulse 667#16)] ∧
      s.env.runs = as ++ [] ∧
      as.map RunAnswer.count = pulseRuns s.tap.tphase (667#16 : BitVec 16).toNat :=
  ⟨rfl, rfl, rfl, by decide, by decide, by decide, rfl, rfl, rfl, by decide⟩

theorem witness_TblockPlaysItsPulseListThenRefreshes :
    (let s := loadedP3 (atLine 0)
     s.MayIssue .p ∧ s.frm.line = 0 ∧ (0#16 : BitVec 16).toNat < s.tap.tblk.length ∧
      (pulses s.blockPayload)[0]? = some 2168) ∧
    (pulses (loadedP3 { atLine 0 with tap.tbi := 1 }).blockPayload).length ≤ 3225 := by
  refine ⟨⟨(atLine_ready 0).1, rfl, by decide, ?_⟩, ?_⟩
  · rfl
  · show (List.replicate 3223 2168 ++ [667, 735] ++ []).length ≤ 3225
    rw [List.append_nil, List.length_append, List.length_replicate]
    decide

theorem witness_TpauseLowersTheEarLatch : ({ atLine 100 with lat.ear := true } : State).MayIssue .p := ⟨rfl, rfl⟩

theorem witness_TbootWarmsUpThenTypesTheScript :
    (atTape .boot).MayIssue .p ∧ (atTape .boot).frm.line = 0 ∧ (atTape .boot).NotPlaying :=
  ⟨⟨rfl, rfl⟩, rfl, (by intro h; cases h), (by intro h; cases h)⟩

/-- A good image, a bad one, and no memory. -/
theorem witness_TplayResetsLoadsAndBoots :
    (∀ b, let s : State := { atTape .idle with env.allocs := [b] }
      s.MayIssue .p ∧ s.tap.tst = .idle ∧ s.frm.line = 0 ∧ s.drawAlloc.1 = b) ∧
      parseTape imageP3 = .ok [(2, 2)] ∧ parseTape [0x00#8] = .error .tapeTrunc :=
  ⟨fun _ => ⟨⟨rfl, rfl⟩, rfl, rfl, rfl⟩, by decide, by decide⟩

/-- The first block, and the end of the list. -/
theorem witness_TapeBlocksArePlayedInOrder :
    let s := loadedP3 (atTape .boot)
    s.MayIssue .p ∧ s.frm.line = 0 ∧ 0 < s.tap.tblk.length ∧ s.tap.tblk.length ≤ 1 :=
  ⟨⟨rfl, rfl⟩, rfl, by decide, by decide⟩

theorem witness_EmptyImageLoadsWithoutRunningTheCpu :
    let s : State := { scripted State.reset .p [encode (.tplay [])] with env.allocs := [true] }
    s.cpu.run = none ∧ s.err.fault = false ∧ s.tap.tst = .idle ∧ s.frm.line = 0 ∧ s.env.pWork = [] ∧
      s.env.cmds.p = [encode (.tplay [])] ∧ s.env.allocs = [true] :=
  ⟨rfl, rfl, rfl, rfl, rfl, rfl, rfl⟩

/-- The image `05 00 FF 01` of program P4, with memory for it and without. -/
theorem witness_FailedLoadLeavesTheResetMachine :
    let img : List Byte := [0x05#8, 0x00#8, 0xFF#8, 0x01#8]
    (∀ ok, let s : State := { scripted State.reset .p [encode (.tplay img)] with env.allocs := [ok] }
      s.cpu.run = none ∧ s.err.fault = false ∧ s.tap.tst = .idle ∧ s.frm.line = 0 ∧ s.env.pWork = [] ∧
        s.env.cmds.p = [encode (.tplay img)] ∧ s.env.allocs = [ok]) ∧
      parseTape img = .error .tapeLen :=
  ⟨fun _ => ⟨rfl, rfl, rfl, rfl, rfl, rfl, rfl⟩, by decide⟩

/-- Both agents, and both ends of the range. -/
theorem witness_SetvolStoresTheLevel :
    (onTurn .h).MayIssue .h ∧ (onTurn .p).MayIssue .p ∧ (0#4).toNat ≤ 10 ∧ (10#4).toNat ≤ 10 :=
  ⟨⟨rfl, rfl⟩, ⟨rfl, rfl⟩, by decide, by decide⟩

theorem witness_PostHandsOverTheAccumulator :
    ((atLine 0).MayIssue .p ∧ (atLine 0).frm.line = 0) ∧ (onTurn .a).env.issuer ≠ .p ∧ (atLine 312).frm.line ≠ 0 ∧
      ({ atLine 0 with err.fault := true } : State).err.fault = true :=
  ⟨⟨(atLine_ready 0).1, rfl⟩, (by decide : Agent.a ≠ .p), (by decide : (312 : Nat) ≠ 0), rfl⟩

theorem atPhase_ready (ph : APhase) : (atPhase ph).MayIssue .a ∧ (atPhase ph).aud.aph = ph := ⟨⟨rfl, rfl⟩, rfl⟩

theorem witness_TakeCopiesTheMailboxFrame :
    (∀ b, let s : State := { atPhase .take with mbx.ready := b }
      s.MayIssue .a ∧ s.aud.aph = .take ∧ s.mbx.ready = b) ∧ (onTurn .p).env.issuer ≠ .a ∧
      (atPhase .flip).aud.aph ≠ .take ∧ ({ atPhase .take with err.fault := true } : State).err.fault = true :=
  ⟨fun _ => ⟨⟨rfl, rfl⟩, rfl, rfl⟩, (by decide : Agent.p ≠ .a), (by decide : APhase.flip ≠ .take), rfl⟩

theorem witness_RenderFillsTheActiveBuffer :
    ∀ (v : Bool) (src : Source), let s : State := { atPhase .render with aud.curValid := v, aud.curSrc := src }
      s.MayIssue .a ∧ s.aud.aph = .render ∧ s.aud.curValid = v ∧ s.aud.curSrc = src :=
  fun _ _ => ⟨⟨rfl, rfl⟩, rfl, rfl, rfl⟩

/-- Full scale at the ends of every range, the longest fade, the last sample. -/
theorem witness_SamplesAreWithinThePeak :
    (1 ≤ 160 ∧ 160 ≤ 160 ∧ 10 ≤ 10 ∧ 319 < 320) ∧ (-32767 : Int).natAbs ≤ 32767 ∧
      ∀ k, k < 312 → LineFrame.entry (Vector.replicate 312 224) k ≤ 224 := by
  refine ⟨by decide, by decide, fun k hk => ?_⟩
  simp [LineFrame.entry, hk]

theorem witness_RendererIsOddAndSilentAtMidScaleAndEdges :
    (∀ k, k < 312 → LineFrame.entry (Vector.replicate 312 24) k ≤ 224) ∧
    (∀ k, k < 312 → LineFrame.entry (Vector.replicate 312 200) k = 224 - LineFrame.entry (Vector.replicate 312 24) k) ∧
    (1 ≤ 1 ∧ 160 ≤ 160) := by
  refine ⟨fun k hk => ?_, fun k hk => ?_, by decide⟩
  · simp [LineFrame.entry, hk]
  · simp [LineFrame.entry, hk]

theorem witness_SubmitHandsOverTheActiveBuffer :
    (atPhase .submit).MayIssue .a ∧ (atPhase .submit).aud.aph = .submit := atPhase_ready .submit

/-- At one frame and at two, with and without another agent's command left. -/
theorem witness_WaitPassesHoldsOrIsStuck :
    (let s : State := { atPhase .wait with snk.sq := [silence] }
     s.MayIssue .a ∧ s.aud.aph = .wait ∧ s.snk.sq.length ≤ 1) ∧
    (let s := scripted { atPhase .wait with snk.sq := [silence, silence] } .s [⟨0x38000000#32, []⟩]
     s.MayIssue .a ∧ s.aud.aph = .wait ∧ 2 ≤ s.snk.sq.length ∧ s.othersPending = true) ∧
    (let s : State := { atPhase .wait with snk.sq := [silence, silence] }
     s.MayIssue .a ∧ s.aud.aph = .wait ∧ 2 ≤ s.snk.sq.length ∧ s.othersPending = false) :=
  ⟨⟨⟨rfl, rfl⟩, rfl, (by decide : (1 : Nat) ≤ 1)⟩, ⟨⟨rfl, rfl⟩, rfl, (by decide : (2 : Nat) ≤ 2), rfl⟩,
    ⟨rfl, rfl⟩, rfl, (by decide : (2 : Nat) ≤ 2), rfl⟩

theorem witness_FlipChangesTheActiveBuffer :
    (atPhase .flip).MayIssue .a ∧ (atPhase .flip).aud.aph = .flip := atPhase_ready .flip

theorem witness_AperiodExpandsToItsOperations :
    (atPhase .take).MayIssue .a ∧ (atPhase .take).aud.aph = .take := atPhase_ready .take

/-- An empty mailbox, and a full one of each producer. -/
theorem witness_AudioPeriodRunsToItsEnd :
    ∀ (r : Bool) (src : Source),
      let s : State := { scripted State.reset .a [encode .aperiod] with mbx.ready := r, mbx.src := src }
      s.cpu.run = none ∧ s.err.fault = false ∧ s.aud.aph = .take ∧ s.snk.sq = [] ∧ s.env.aWork = [] ∧
        s.env.cmds.a = [encode .aperiod] ∧ s.mbx.ready = r ∧ s.mbx.src = src :=
  fun _ _ => ⟨rfl, rfl, rfl, rfl, rfl, rfl, rfl, rfl⟩

theorem witness_SinkdoneFinishesTheOldestFrame :
    let s : State := { onTurn .s with snk.sq := [silence] }
    s.MayIssue .s ∧ s.snk.sq = [silence] := ⟨⟨rfl, rfl⟩, rfl⟩

theorem witness_PresetGivesEveryResetValue :
    ({ onTurn .h with err.fault := true } : State).env.issuer = .h := rfl

theorem witness_MresetTouchesOnlyTheMachine :
    ({ atLine 100 with lat.beep := true } : State).MayIssue .p ∧ (atLine 100).tap.tst = .idle := ⟨⟨rfl, rfl⟩, rfl⟩

theorem witness_LasterrReturnsTheCode : ({ onTurn .h with err.fault := true } : State).env.issuer = .h := rfl

/-! Steps whose hypotheses the statements about the whole machine take. -/

/-- The reset state in the first turn of agent `g`, who issues `c`. -/
def firstTurn (g : Agent) (c : Cmd) : State := scripted State.reset g [c]

theorem reset_frames_zero : AllOrNothing (Vector.replicate 312 0) := by
  intro k hk
  left
  simp [LineFrame.entry, hk]

theorem witness_StepKeepsTheInvariant :
    (firstTurn .p (encode .post)).Inv ∧ (∃ t, step (firstTurn .p (encode .post)) = .next t) ∧
      ∃ t, stepAs .a (firstTurn .p (encode .post)) = .next t := by
  refine ⟨?_, ⟨_, rfl⟩, _, rfl⟩
  constructor
  case acc_allOrNothing => exact reset_frames_zero
  case mb_allOrNothing => exact reset_frames_zero
  case cur_allOrNothing => exact reset_frames_zero
  case tacc_allOrNothing => exact reset_frames_zero
  case line_le => exact Nat.zero_le _
  case tln_le => exact Nat.zero_le _
  case tphase_le => exact Nat.zero_le _
  case vol_le => exact Nat.min_le_right _ _
  case pcm_within =>
    intro b i h
    simp [firstTurn, scripted, State.reset, Audio.preset]
  case sq_le => exact Nat.zero_le _
  case sq_le_one => exact fun _ => Nat.zero_le _
  case fcyc_eq => exact fun _ => rfl
  case carry_le => exact Nat.zero_le _
  case no_run => rfl

/-- A scanline, an end of frame, and a step that leaves `LINE`. -/
theorem witness_ScanlinesFollowInOrder :
    (firstTurn .p (encode .post)).cpu.run = none ∧ (∃ t, step (firstTurn .p (encode .post)) = .next t) ∧
      (firstTurn .p (encode (.line true))).fetch.1 = .op (.line true) ∧
      (∃ t, step (firstTurn .p (encode (.line true))) = .next t) ∧
      (firstTurn .p (encode .eof)).fetch.1 = .op .eof :=
  ⟨rfl, ⟨_, rfl⟩, rfl, ⟨_, rfl⟩, rfl⟩

theorem witness_NoStepWritesTheBufferInFlight :
    (∃ t, step (firstTurn .a (encode .take)) = .next t) ∧ (firstTurn .a (encode .take)).fetch.1 ≠ .op .preset :=
  ⟨⟨_, rfl⟩, by decide⟩

theorem witness_OnlyPostsAndTakesTouchTheMailbox :
    (firstTurn .p (encode .post)).cpu.run = none ∧ ∃ t, step (firstTurn .p (encode .post)) = .next t ∧ t.mbx.ready = true :=
  ⟨rfl, _, rfl, rfl⟩

theorem witness_InterruptRequestsComeAtFrameEndsAlone :
    let s : State := { firstTurn .p (encode .eof) with frm.line := 312, cpu.regs := interruptible .im1 }
    s.cpu.run = none ∧ ∃ t, step s = .next t ∧ t.log.calls = [.interrupt Config.intVector] := ⟨rfl, _, rfl, rfl⟩

theorem witness_VolumeAndOutputKeepTheirWriters :
    (∃ t, step (firstTurn .h (encode (.setvol 7#4))) = .next t ∧ t.aud.vol = 7) ∧
      (firstTurn .h (encode (.setvol 7#4))).fetch.1 ≠ .op .preset := ⟨⟨_, rfl, rfl⟩, by decide⟩

end Sys2Proof.Tests
end

/-!
PROOFS. The tape image is a concatenation of records (R92, R93): what `parseFrom` makes of one record, and from it the
images it accepts.
-/
namespace Sys2Proof.Machine

/-! ### One record -/

theorem recordLength_le (lo hi : Byte) : recordLength lo hi ≤ 65535 := by
  unfold recordLength
  omega

/-- The two length bytes `recordBytes` writes are read back as the length. -/
theorem recordLength_ofNat {n : Nat} (h : n ≤ 65535) :
    recordLength (BitVec.ofNat 8 n) (BitVec.ofNat 8 (n / 256)) = n := by
  simp only [recordLength, BitVec.toNat_ofNat]
  omega

/-- The length bytes and a payload of the length they declare are the record of that payload. -/
theorem recordBytes_of_length {lo hi : Byte} {d : List Byte} (h : d.length = recordLength lo hi) :
    recordBytes d = lo :: hi :: d := by
  have hlo : BitVec.ofNat 8 (recordLength lo hi) = lo := by
    apply BitVec.eq_of_toNat_eq
    simp only [recordLength, BitVec.toNat_ofNat]
    omega
  have hhi : BitVec.ofNat 8 (recordLength lo hi / 256) = hi := by
    apply BitVec.eq_of_toNat_eq
    simp only [recordLength, BitVec.toNat_ofNat]
    omega
  simp [recordBytes, h, hlo, hhi]

@[simp] theorem length_recordBytes (d : List Byte) : (recordBytes d).length = 2 + d.length := by
  rw [recordBytes, List.length_append]
  rfl

theorem flagOk_iff (b : Byte) : flagOk b = true ↔ b = 0x00#8 ∨ b = 0xFF#8 := by
  rw [flagOk, Bool.or_eq_true, decide_eq_true_eq, decide_eq_true_eq]
  rfl

theorem flagOk_head?_iff (l : List Byte) :
    l.head?.any flagOk = true ↔ l.head? = some 0x00#8 ∨ l.head? = some 0xFF#8 := by
  cases l with
  | nil => simp
  | cons b bs => simp [flagOk_iff]

theorem IsPayload.length_pos {d : List Byte} (h : IsPayload d) : 1 ≤ d.length := by
  obtain ⟨-, hflag⟩ := h
  cases d with
  | nil => simp at hflag
  | cons => simp

/-! ### The parser on a record -/

/-- The payload bytes to skip are dropped. -/
theorem parseFrom_skip (l : List Byte) (n p : Nat) : parseFrom l n p = parseFrom (l.drop n) 0 (p + n) := by
  induction l generalizing n p with
  | nil => simp [parseFrom]
  | cons b bs ih =>
    cases n with
    | zero => rfl
    | succ n => rw [parseFrom, ih, List.drop_succ_cons, Nat.add_right_comm, Nat.add_assoc]

/-- A record that passes the checks of R239 is one block, in front of the blocks of what follows its payload (R93). -/
theorem parseFrom_record {lo hi : Byte} {rest : List Byte} (p : Nat) (hpos : 1 ≤ recordLength lo hi)
    (hle : recordLength lo hi ≤ rest.length) (hflag : rest.head?.any flagOk = true) :
    parseFrom (lo :: hi :: rest) 0 p =
      (parseFrom (rest.drop (recordLength lo hi)) 0 (p + 2 + recordLength lo hi)).map
        ((p + 2, recordLength lo hi) :: ·) := by
  rw [← parseFrom_skip, parseFrom, if_neg (by omega), if_neg (by omega), if_neg (by simp [hflag])]
  cases parseFrom rest (recordLength lo hi) (p + 2) <;> rfl

/-- `parseFrom_record`, the record written from its payload. -/
theorem parseFrom_recordBytes_append {d : List Byte} (h : IsPayload d) (rest : List Byte) (p : Nat) :
    parseFrom (recordBytes d ++ rest) 0 p =
      (parseFrom rest 0 (p + 2 + d.length)).map ((p + 2, d.length) :: ·) := by
  have hpos := h.length_pos
  obtain ⟨hlen, hflag⟩ := h
  have hn := recordLength_ofNat hlen
  have hhead : (d ++ rest).head? = d.head? := List.head?_append_of_ne_nil d (List.length_pos_iff.mp hpos)
  have key := parseFrom_record (lo := BitVec.ofNat 8 d.length) (hi := BitVec.ofNat 8 (d.length / 256))
    (rest := d ++ rest) p (by omega) (by simp [hn]) ((flagOk_head?_iff _).mpr (hhead ▸ hflag))
  simpa [hn, recordBytes] using key

/-! ### The images that parse -/

/-- The blocks of consecutive records with payloads `ds`, the first of which starts at index `p`. -/
def recordBlocks : Nat → List (List Byte) → List (Nat × Nat)
  | _, [] => []
  | p, d :: ds => (p + 2, d.length) :: recordBlocks (p + 2 + d.length) ds

theorem map_snd_recordBlocks (ds : List (List Byte)) (p : Nat) :
    (recordBlocks p ds).map Prod.snd = ds.map List.length := by
  induction ds generalizing p with
  | nil => rfl
  | cons d ds ih => simp [recordBlocks, ih]

/-- The bytes of the blocks, read in the image, are the payloads. -/
theorem map_payload_recordBlocks (ds : List (List Byte)) (pre : List Byte) :
    (recordBlocks pre.length ds).map (payload (pre ++ ds.flatMap recordBytes)) = ds := by
  induction ds generalizing pre with
  | nil => rfl
  | cons d ds ih =>
    have hd : payload (pre ++ (d :: ds).flatMap recordBytes) (pre.length + 2, d.length) = d := by
      rw [payload, List.drop_length_add_append]
      simp [recordBytes]
    have hds := ih (pre ++ recordBytes d)
    rw [List.length_append, length_recordBytes, List.append_assoc, ← Nat.add_assoc] at hds
    rw [recordBlocks, List.map_cons, hd, List.flatMap_cons, hds]

theorem parseFrom_flatMap_recordBytes {ds : List (List Byte)} (h : ∀ d ∈ ds, IsPayload d) (p : Nat) :
    parseFrom (ds.flatMap recordBytes) 0 p = .ok (recordBlocks p ds) := by
  induction ds generalizing p with
  | nil => rfl
  | cons d ds ih =>
    obtain ⟨hd, hds⟩ := List.forall_mem_cons.mp h
    rw [List.flatMap_cons, parseFrom_recordBytes_append hd, ih hds]
    rfl

/-- What the parser accepts is a concatenation of records, behind the bytes it was told to skip. -/
theorem exists_payloads_of_parseFrom (l : List Byte) (skip p : Nat) (bs : List (Nat × Nat)) :
    parseFrom l skip p = .ok bs →
      ∃ ds : List (List Byte), (∀ d ∈ ds, IsPayload d) ∧ l.drop skip = ds.flatMap recordBytes ∧
        bs = recordBlocks (p + skip) ds := by
  fun_induction parseFrom l skip p generalizing bs with
  | case1 =>
    rintro ⟨⟩
    exact ⟨[], by simp, by simp, rfl⟩
  | case2 b l skip p ih =>
    rw [List.drop_succ_cons, Nat.succ_eq_add_one, Nat.add_comm skip, ← Nat.add_assoc]
    exact ih bs
  | case3 | case4 | case5 | case6 | case8 => nofun
  | case7 lo hi rest p n hle hpos hflag blocks hblocks ih =>
    rintro ⟨⟩
    obtain ⟨ds, hds, hrest, rfl⟩ := ih blocks hblocks
    have hlen : (rest.take n).length = n := List.length_take_of_le (by omega)
    have hpay : IsPayload (rest.take n) := by
      refine ⟨hlen.trans_le (recordLength_le lo hi), ?_⟩
      rw [List.head?_take, if_neg hpos]
      exact (flagOk_head?_iff rest).mp (by simpa using hflag)
    refine ⟨rest.take n :: ds, List.forall_mem_cons.mpr ⟨hpay, hds⟩, ?_, ?_⟩
    · rw [List.flatMap_cons, recordBytes_of_length hlen, ← hrest]
      simp
    · rw [recordBlocks, hlen]

theorem parseTape_ok_iff (img : List Byte) (bs : List (Nat × Nat)) :
    parseTape img = .ok bs ↔
      ∃ ds : List (List Byte), (∀ d ∈ ds, IsPayload d) ∧ img = ds.flatMap recordBytes ∧ bs = recordBlocks 0 ds := by
  constructor
  · exact exists_payloads_of_parseFrom img 0 0 bs
  · rintro ⟨ds, hds, rfl, rfl⟩
    exact parseFrom_flatMap_recordBytes hds 0

/-- A block whose bytes, read in the image, are as many as it declares and make a payload lies in the image. -/
theorem block_in_image {img : List Byte} {b : Nat × Nat} (hlen : b.2 = (payload img b).length)
    (h : IsPayload (payload img b)) :
    1 ≤ b.2 ∧ b.1 + b.2 ≤ img.length ∧ (img[b.1]? = some 0x00#8 ∨ img[b.1]? = some 0xFF#8) := by
  have hpos : 1 ≤ b.2 := hlen ▸ h.length_pos
  obtain ⟨-, hflag⟩ := h
  have hhead : (payload img b).head? = img[b.1]? := by
    rw [payload, List.head?_take, if_neg (by omega), List.head?_drop]
  have hfit : b.2 ≤ img.length - b.1 := by
    rw [payload, List.length_take, List.length_drop] at hlen
    omega
  exact ⟨hpos, by omega, hhead ▸ hflag⟩

/-- Settles O24: the accepted images are exactly the concatenations of records (`parseTape_ok_iff`). -/
theorem parsedBlocksLieInTheImage : Obligations.ParsedBlocksLieInTheImage := by
  unfold Obligations.ParsedBlocksLieInTheImage
  constructor
  · intro img bs h
    obtain ⟨ds, hds, himg, rfl⟩ := (parseTape_ok_iff img bs).mp h
    have hmap : (recordBlocks 0 ds).map (payload img) = ds := himg ▸ map_payload_recordBlocks ds []
    have hpay : ∀ b ∈ recordBlocks 0 ds, IsPayload (payload img b) := fun b hb =>
      hds _ (hmap ▸ List.mem_map_of_mem hb)
    have hlen : ∀ b ∈ recordBlocks 0 ds, b.2 = (payload img b).length :=
      List.map_inj_left.mp <|
        calc (recordBlocks 0 ds).map Prod.snd
          _ = ds.map List.length := map_snd_recordBlocks ds 0
          _ = ((recordBlocks 0 ds).map (payload img)).map List.length := by rw [hmap]
          _ = (recordBlocks 0 ds).map fun b => (payload img b).length := List.map_map
    exact ⟨fun b hb => block_in_image (hlen b hb) (hpay b hb), hpay, by rw [hmap, ← himg]⟩
  · intro ds hds
    exact ⟨recordBlocks 0 ds, parseFrom_flatMap_recordBytes hds 0, map_payload_recordBlocks ds []⟩

/-- Settles O25: `parseFrom_record` on either answer of the parser for the rest. -/
theorem recordLengthIsLittleEndian : Obligations.RecordLengthIsLittleEndian := by
  unfold Obligations.RecordLengthIsLittleEndian
  intro lo hi rest p n
  refine ⟨recordLength_le lo hi, fun hpos hle hflag => ?_⟩
  have hrec := parseFrom_record p hpos hle ((flagOk_head?_iff rest).mpr hflag)
  constructor
  · exact fun bs hbs => hrec.trans (congrArg _ hbs)
  · exact fun e he => hrec.trans (congrArg _ he)

end Sys2Proof.Machine

/-!
PROOFS. Decoder and encoder (R85 to R88): what each form of operand field decodes to, and the operation map read in both
directions.
-/
namespace Sys2Proof

/-! ### The forms of operand fields: an operation read from one has the command's word, and no form is reserved -/

theorem Cmd.plain_sound {c : Cmd} {i j : Instr} {op : BitVec 8} {img : List Byte} (h : c.plain i = .ok j)
    (hword : i.word = fields op 0#16 0#8) (himg : i.image = img) : j.word = fields op c.a c.b ∧ j.image = img := by
  unfold Cmd.plain at h
  split at h
  · next hab =>
    obtain ⟨ha, hb⟩ := hab
    cases h
    rw [ha, hb]
    exact ⟨hword, himg⟩
  · cases h

theorem Cmd.withA_sound {c : Cmd} {f : BitVec 16 → Instr} {j : Instr} {op : BitVec 8} (h : c.withA f = .ok j)
    (hword : ∀ a, (f a).word = fields op a 0#8) (himg : ∀ a, (f a).image = []) :
    j.word = fields op c.a c.b ∧ j.image = [] := by
  unfold Cmd.withA at h
  split at h
  · next hb =>
    cases h
    rw [hb]
    exact ⟨hword _, himg _⟩
  · cases h

theorem Cmd.withEnable_sound {c : Cmd} {f : Bool → Instr} {j : Instr} {op : BitVec 8} (h : c.withEnable f = .ok j)
    (hword : ∀ en, (f en).word = fields op 0#16 (bif en then 1#8 else 0#8)) (himg : ∀ en, (f en).image = []) :
    j.word = fields op c.a c.b ∧ j.image = [] := by
  have byte_eq : ∀ b : Byte, b.extractLsb' 1 7 = 0#7 → (bif b.getLsbD 0 then 1#8 else 0#8) = b := by decide
  unfold Cmd.withEnable at h
  split at h
  · next hab =>
    obtain ⟨ha, hb⟩ := hab
    cases h
    rw [ha, hword, byte_eq _ hb]
    exact ⟨rfl, himg _⟩
  · cases h

theorem Cmd.withLevel_sound {c : Cmd} {f : BitVec 4 → Instr} {j : Instr} {op : BitVec 8} (h : c.withLevel f = .ok j)
    (hword : ∀ level, (f level).word = fields op 0#16 (0#4 ++ level)) (himg : ∀ level, (f level).image = []) :
    j.word = fields op c.a c.b ∧ j.image = [] := by
  have byte_eq : ∀ b : Byte, b.extractLsb' 4 4 = 0#4 → 0#4 ++ b.extractLsb' 0 4 = b := by decide
  unfold Cmd.withLevel at h
  split at h
  · next hab =>
    obtain ⟨ha, hb⟩ := hab
    cases h
    rw [ha, hword, byte_eq _ hb]
    exact ⟨rfl, himg _⟩
  · cases h

theorem Cmd.plain_ne_reserved (c : Cmd) (i : Instr) : c.plain i ≠ .error .reservedOp := by
  unfold Cmd.plain
  split <;> nofun

theorem Cmd.withA_ne_reserved (c : Cmd) (f : BitVec 16 → Instr) : c.withA f ≠ .error .reservedOp := by
  unfold Cmd.withA
  split <;> nofun

theorem Cmd.withEnable_ne_reserved (c : Cmd) (f : Bool → Instr) : c.withEnable f ≠ .error .reservedOp := by
  unfold Cmd.withEnable
  split <;> nofun

theorem Cmd.withLevel_ne_reserved (c : Cmd) (f : BitVec 4 → Instr) : c.withLevel f ≠ .error .reservedOp := by
  unfold Cmd.withLevel
  split <;> nofun

/-! ### The operation map -/

/-- A row of the operation map: the code, and what a command of that code is (R86, R87). -/
abbrev OperationRow := BitVec 8 × (Cmd → Except Reject Instr)

/-- The operation map of R86. -/
def operationMap : List OperationRow :=
  [(0x01#8, fun c => .ok (.portw c.a c.b)), (0x02#8, (·.withA .portr)), (0x10#8, (·.withEnable .line)),
    (0x11#8, (·.plain .eof)), (0x12#8, (·.withEnable .frame)), (0x13#8, (·.plain .steady)),
    (0x20#8, fun c => c.plain (.tload c.image)), (0x21#8, (·.plain .tboot)), (0x22#8, (·.withA .pulse)),
    (0x23#8, (·.withA .tblock)), (0x24#8, (·.plain .tpause)), (0x25#8, fun c => c.plain (.tplay c.image)),
    (0x30#8, (·.withLevel .setvol)), (0x31#8, (·.plain .post)), (0x32#8, (·.plain .take)), (0x33#8, (·.plain .render)),
    (0x34#8, (·.plain .submit)), (0x35#8, (·.plain .wait)), (0x36#8, (·.plain .flip)), (0x37#8, (·.plain .aperiod)),
    (0x38#8, (·.plain .sinkdone)), (0xF0#8, (·.plain .preset)), (0xF1#8, (·.plain .mreset)), (0xF2#8, (·.plain .lasterr))]

/-- The first row with the command's code decides. -/
def Cmd.lookup (c : Cmd) (rows : List OperationRow) : Except Reject Instr :=
  rows.foldr (fun row rest => if c.op = row.1 then row.2 c else rest) (.error .reservedOp)

theorem Cmd.operation_eq_lookup (c : Cmd) : c.operation = c.lookup operationMap := rfl

theorem Cmd.lookup_eq_ok {c : Cmd} {rows : List OperationRow} {i : Instr} (h : c.lookup rows = .ok i) :
    ∃ row ∈ rows, c.op = row.1 ∧ row.2 c = .ok i := by
  induction rows with
  | nil => cases h
  | cons row rows ih =>
    rw [Cmd.lookup, List.foldr_cons] at h
    split at h
    · exact ⟨row, List.mem_cons_self, ‹_›, h⟩
    · obtain ⟨r, hr, hrow⟩ := ih h
      exact ⟨r, List.mem_cons_of_mem _ hr, hrow⟩

theorem Cmd.lookup_eq_reserved_iff {c : Cmd} {rows : List OperationRow} (h : ∀ row ∈ rows, row.2 c ≠ .error .reservedOp) :
    c.lookup rows = .error .reservedOp ↔ c.op ∉ rows.map Prod.fst := by
  induction rows with
  | nil => simp [Cmd.lookup]
  | cons row rows ih =>
    obtain ⟨hrow, hrows⟩ := List.forall_mem_cons.mp h
    rw [Cmd.lookup, List.foldr_cons, List.map_cons, List.mem_cons, not_or]
    by_cases hop : c.op = row.1
    · simp [hop, hrow]
    · rw [if_neg hop]
      exact (ih hrows).trans (and_iff_right hop).symm

/-- A row does not call its own commands reserved. -/
theorem operationMap_ne_reserved (c : Cmd) : ∀ row ∈ operationMap, row.2 c ≠ .error .reservedOp := by
  simp [operationMap, Cmd.plain_ne_reserved, Cmd.withA_ne_reserved, Cmd.withEnable_ne_reserved,
    Cmd.withLevel_ne_reserved]

/-- An operation read from a row has the row's code, the command's operands, and the command's image if its code takes
one. -/
theorem operationMap_sound (c : Cmd) : ∀ row ∈ operationMap, ∀ i, row.2 c = .ok i →
    i.word = fields row.1 c.a c.b ∧ i.image = if row.1 = 0x20#8 ∨ row.1 = 0x25#8 then c.image else [] := by
  simp only [operationMap, List.forall_mem_cons]
  refine ⟨?portw, ?portr, ?line, ?eof, ?frame, ?steady, ?tload, ?tboot, ?pulse, ?tblock, ?tpause, ?tplay, ?setvol, ?post,
    ?take, ?render, ?submit, ?wait, ?flip, ?aperiod, ?sinkdone, ?preset, ?mreset, ?lasterr, nofun⟩
  case portw => rintro _ ⟨⟩; exact ⟨rfl, rfl⟩
  case portr | pulse | tblock => exact fun _ h => Cmd.withA_sound h (fun _ => rfl) fun _ => rfl
  case line | frame => exact fun _ h => Cmd.withEnable_sound h (fun _ => rfl) fun _ => rfl
  case setvol => exact fun _ h => Cmd.withLevel_sound h (fun _ => rfl) fun _ => rfl
  all_goals exact fun _ h => Cmd.plain_sound h rfl rfl

theorem decode_eq_ok {c : Cmd} {i : Instr} :
    decode c = .ok i ↔ c.operation = .ok i ∧ (c.image = [] ∨ c.takesImage = true) := by
  unfold decode
  by_cases himg : c.image = [] ∨ c.takesImage = true <;> cases c.operation <;> simp [himg]

theorem decode_eq_reserved {c : Cmd} : decode c = .error .reservedOp ↔ c.operation = .error .reservedOp := by
  unfold decode
  by_cases himg : c.image = [] ∨ c.takesImage = true <;> cases c.operation <;> simp [himg]

/-- Every operation's word leads to its own row of the map. -/
theorem operation_encode (i : Instr) : (encode i).operation = .ok i := by
  cases i with
  | line en => cases en <;> rfl
  | frame en => cases en <;> rfl
  | setvol level =>
    have hbits : (0#4 ++ level).extractLsb' 4 4 = 0#4 ∧ (0#4 ++ level).extractLsb' 0 4 = level := by decide +revert
    simp [encode, Cmd.operation, Instr.word, Cmd.withLevel, hbits]
  | _ => simp [encode, Cmd.operation, Instr.word, Instr.image, Cmd.plain, Cmd.withA]

theorem encode_image (i : Instr) : (encode i).image = [] ∨ (encode i).takesImage = true := by
  cases i <;> simp [encode, Cmd.takesImage, Instr.word, Instr.image]

/-- Settles O1: the code of each word selects its own row, and an image stands only beside a code that takes one. -/
theorem decodeInvertsEncode : Obligations.DecodeInvertsEncode := by
  unfold Obligations.DecodeInvertsEncode
  exact fun i => decode_eq_ok.mpr ⟨operation_encode i, encode_image i⟩

/-- Settles O2: the row that decoded the command is sound (`operationMap_sound`). -/
theorem encodeInvertsDecode : Obligations.EncodeInvertsDecode := by
  unfold Obligations.EncodeInvertsDecode
  intro c i h
  obtain ⟨hop, himg⟩ := decode_eq_ok.mp h
  obtain ⟨row, hrow, hcode, hi⟩ := Cmd.lookup_eq_ok (c.operation_eq_lookup ▸ hop)
  obtain ⟨hword, himage⟩ := operationMap_sound c row hrow i hi
  rw [encode, hword, himage, ← hcode, ← word_eq_fields c]
  simp only [Cmd.takesImage, Bool.or_eq_true, decide_eq_true_eq] at himg
  split
  · rfl
  · rw [← himg.resolve_right ‹_›]

/-- Settles O4: no row of the map answers that its own code is reserved. -/
theorem reservedCodesAreTheOnesNotInTheMap : Obligations.ReservedCodesAreTheOnesNotInTheMap := by
  unfold Obligations.ReservedCodesAreTheOnesNotInTheMap
  exact fun c => decode_eq_reserved.trans (Cmd.lookup_eq_reserved_iff (operationMap_ne_reserved c))

/-- Settles O3, word by word. -/
theorem decodesWordsOfTheSpec : Obligations.DecodesWordsOfTheSpec := by
  unfold Obligations.DecodesWordsOfTheSpec
  decide

end Sys2Proof

/-!
PROOFS. The outcome of every operation in one place: why it is refused, what it does when it is not, and the one case
that stops the machine (R14, R88, R195, R220 c).
-/
namespace Sys2Proof.Machine

/-! ### Refusal and effect of each operation -/

/-- Why operation `i` is refused in `s`, if it is. -/
def State.refusalOf (s : State) : Instr → Option Why
  | .portw _ _ => s.portWhy
  | .portr _ => s.portWhy
  | .line _ => s.lineWhy
  | .eof => s.eofWhy
  | .frame _ => s.frameWhy
  | .steady => s.frameWhy
  | .tload _ => s.tloadWhy
  | .tboot => s.frameWhy
  | .pulse w => s.pulseWhy w.toNat
  | .tblock i => s.tblockWhy i.toNat
  | .tpause => s.tpauseWhy
  | .tplay _ => s.tplayWhy
  | .setvol level => s.setvolWhy level
  | .post => s.postWhy
  | .take => s.audioWhy .take
  | .render => s.audioWhy .render
  | .submit => s.audioWhy .submit
  | .wait => s.audioWhy .wait
  | .flip => s.audioWhy .flip
  | .aperiod => s.audioWhy .take
  | .sinkdone => s.sinkdoneWhy
  | .preset => s.barredIssuer [.h]
  | .mreset => s.mresetWhy
  | .lasterr => s.barredIssuer [.h]

/-- The end of a frame: the interrupt request under its condition, then the next frame may begin (R132). -/
def State.frameEnd (s : State) : State := { s.frameInterrupt with frm.line := 0, frm.fcyc := 0 }

/-- A `WAIT` passed, or held (R195). -/
def State.waitOn (s : State) : State := if s.snk.sq.length ≤ 1 then { s with aud.aph := .flip } else s.holdWait

/-- What operation `i` makes of `s` when it is not refused; a `WAIT` that is not stuck. -/
def State.effectOf (s : State) : Instr → State
  | .portw port data => s.portWrite port data
  | .portr port => s.portRead port
  | .line en => s.lineStart.cpuRun Config.tLine (.line en)
  | .eof => s.frameEnd
  | .frame en => s.pushP (frameParts en)
  | .steady => s.pushP [.op (.frame true), .op .post]
  | .tload img => s.returnLoad img
  | .tboot => s.pushP bootParts
  | .pulse w => s.startPulse w.toNat
  | .tblock i => s.startBlock i.toNat
  | .tpause => { s with lat.ear := false }
  | .tplay img => s.pushP [.op .mreset, .playLoad img]
  | .setvol level => { s with aud.vol := level.toNat }
  | .post => s.postFrame s.frm.acc .beeper
  | .take => { s.takeFrame with aud.aph := .render }
  | .render => { s with
      aud.pcm := s.aud.pcm.set s.aud.ab s.renderedFrame, aud.sprev := s.renderedCarry, aud.aph := .submit }
  | .submit => { s with
      snk.sq := s.snk.sq ++ [s.activeBuffer], snk.out := s.snk.out ++ [s.activeBuffer], aud.aph := .wait }
  | .wait => s.waitOn
  | .flip => { s with aud.ab := 1 - s.aud.ab, aud.aph := .take }
  | .aperiod => { s with env.aWork := periodParts ++ s.env.aWork }
  | .sinkdone => { s with snk.sq := s.snk.sq.tail }
  | .preset => s.powerOn
  | .mreset => s.machineReset
  | .lasterr => s.giveBack (.code s.lastError)

/-- A `WAIT` that would be held with nobody left to lift the hold (R220 c). -/
def State.StuckAt (s : State) (i : Instr) : Prop :=
  i = .wait ∧ s.refusalOf i = none ∧ 2 ≤ s.snk.sq.length ∧ s.othersPending = false

theorem exec_eq_attempt {i : Instr} (s : State) (h : i ≠ .wait) :
    exec i s = .next (s.attempt i (s.refusalOf i) (s.effectOf i)) := by
  cases i with
  | wait => exact absurd rfl h
  | _ => rfl

/-- Every operation is refused, or has its effect, or is a stuck `WAIT`. -/
theorem exec_cases (i : Instr) (s : State) :
    (∃ w, s.refusalOf i = some w ∧ exec i s = .next (s.refuse (encode i) w)) ∨
      (s.refusalOf i = none ∧ ¬ s.StuckAt i ∧ exec i s = .next (s.effectOf i)) ∨
      (s.StuckAt i ∧ exec i s = .fault .stuck) := by
  by_cases hi : i = .wait
  · subst hi
    show (∃ w, s.audioWhy .wait = some w ∧ execWait s = _) ∨ (s.audioWhy .wait = none ∧ _ ∧ execWait s = _) ∨
      (_ ∧ execWait s = _)
    unfold execWait
    cases hw : s.audioWhy .wait with
    | some w => exact .inl ⟨w, rfl, rfl⟩
    | none =>
      have hstuck : s.StuckAt .wait ↔ 2 ≤ s.snk.sq.length ∧ s.othersPending = false := by
        simp [State.StuckAt, State.refusalOf, hw]
      refine .inr ?_
      by_cases hq : s.snk.sq.length ≤ 1
      · exact .inl ⟨rfl, by rw [hstuck]; omega, by simp [State.effectOf, State.waitOn, hq]⟩
      · cases ho : s.othersPending with
        | true => exact .inl ⟨rfl, by simp [hstuck, ho], by simp [State.effectOf, State.waitOn, hq]⟩
        | false => exact .inr ⟨hstuck.mpr ⟨by omega, ho⟩, by simp [hq]⟩
  · rw [exec_eq_attempt s hi]
    cases s.refusalOf i with
    | some w => exact .inl ⟨w, rfl, rfl⟩
    | none => exact .inr (.inl ⟨rfl, fun h => hi h.1, rfl⟩)

/-- An operation that is not refused, and is no stuck `WAIT`, has its effect. -/
theorem exec_of_accepted {i : Instr} {s : State} (h : s.refusalOf i = none) (hi : ¬ s.StuckAt i) :
    exec i s = .next (s.effectOf i) := by
  obtain ⟨w, hw, -⟩ | ⟨-, -, he⟩ | ⟨hs, -⟩ := exec_cases i s
  · rw [h] at hw; cases hw
  · exact he
  · exact absurd hs hi

/-- The next state an operation answers is the refusal's or its effect. -/
theorem exec_next {i : Instr} {s t : State} (h : exec i s = .next t) :
    (∃ w, t = s.refuse (encode i) w) ∨ (s.refusalOf i = none ∧ t = s.effectOf i) := by
  obtain ⟨w, -, he⟩ | ⟨hn, -, he⟩ | ⟨-, he⟩ := exec_cases i s <;> rw [he] at h <;> cases h
  · exact .inl ⟨w, rfl⟩
  · exact .inr ⟨hn, rfl⟩

/-! ### When an operation is accepted -/

@[simp] theorem ite_some_left_eq_none {α : Type} {p : Prop} [Decidable p] {a : α} {x : Option α} :
    (if p then some a else x) = none ↔ ¬ p ∧ x = none := by
  split <;> simp [*]

@[simp] theorem ite_some_right_eq_none {α : Type} {p : Prop} [Decidable p] {a : α} {x : Option α} :
    (if p then x else some a) = none ↔ p ∧ x = none := by
  split <;> simp [*]

theorem lineWhy_eq_none_iff {s : State} :
    s.lineWhy = none ↔ s.env.issuer = .p ∧ s.err.fault = false ∧ s.frm.line < 312 ∧ s.NotPlaying := by
  rw [State.lineWhy, barred_eq_none, List.mem_singleton, ← tapePlaying_eq_false, ite_some_left_eq_none]
  simp [Config.nLines]

theorem frameWhy_eq_none_iff {s : State} :
    s.frameWhy = none ↔ s.env.issuer = .p ∧ s.err.fault = false ∧ s.frm.line = 0 ∧ s.NotPlaying := by
  rw [State.frameWhy, barred_eq_none, List.mem_singleton, ← tapePlaying_eq_false, ← midFrame_eq_none]
  cases s.tapePlaying <;> simp

theorem tplayWhy_eq_none_iff {s : State} :
    s.tplayWhy = none ↔ s.env.issuer = .p ∧ s.err.fault = false ∧ s.tap.tst = .idle ∧ s.frm.line = 0 := by
  rw [State.tplayWhy, barred_eq_none, List.mem_singleton, ← loading_eq_none, ← midFrame_eq_none]
  cases s.loading <;> simp

theorem eofWhy_eq_none_iff {s : State} :
    s.eofWhy = none ↔ s.env.issuer = .p ∧ s.err.fault = false ∧ s.frm.line = 312 := by
  rw [State.eofWhy, barred_eq_none, List.mem_singleton, ite_some_right_eq_none, and_iff_left rfl]
  rfl

theorem setvolWhy_eq_none_iff {s : State} {level : BitVec 4} :
    s.setvolWhy level = none ↔ s.env.issuer ∈ [Agent.h, .p] ∧ s.err.fault = false ∧ level.toNat ≤ 10 := by
  rw [State.setvolWhy, barred_eq_none, ite_some_right_eq_none, and_iff_left rfl]
  rfl

theorem barredIssuer_eq_none {s : State} {gs : List Agent} : s.barredIssuer gs = none ↔ s.env.issuer ∈ gs := by
  simp [State.barredIssuer]

/-- An operation other than `LINE` is accepted exactly from an agent of R86, without a fault and in place; `PRESET` and
`LASTERR` also under a fault. -/
theorem refusalOf_eq_none_iff {i : Instr} {s : State} (h : ∀ en, i ≠ .line en) :
    s.refusalOf i = none ↔
      s.env.issuer ∈ i.agents ∧ (s.err.fault = false ∨ i = .preset ∨ i = .lasterr) ∧ ¬ s.OutOfPlace i := by
  cases i with
  | line en => exact absurd rfl (h en)
  | frame | steady | tboot =>
    exact frameWhy_eq_none_iff.trans (by simp [Instr.agents, State.OutOfPlace])
  | tplay => exact tplayWhy_eq_none_iff.trans (by simp [Instr.agents, State.OutOfPlace])
  | preset | lasterr => exact barredIssuer_eq_none.trans (by simp [Instr.agents, State.OutOfPlace])
  | portw | portr =>
    exact barred_eq_none.trans (by simp [Instr.agents, State.OutOfPlace, ← Option.isSome_iff_ne_none])
  | eof => exact eofWhy_eq_none_iff.trans (by simp [Instr.agents, State.OutOfPlace])
  | tload | mreset => exact barred_eq_none.trans (by simp [Instr.agents, State.OutOfPlace, loading_eq_none])
  | pulse w =>
    exact barred_eq_none.trans (by simp [Instr.agents, State.OutOfPlace, midFrame_eq_none, ← BitVec.toNat_inj])
  | tblock => exact barred_eq_none.trans (by simp [Instr.agents, State.OutOfPlace, midFrame_eq_none])
  | tpause => exact barred_eq_none.trans (by simp [Instr.agents, State.OutOfPlace])
  | setvol => exact setvolWhy_eq_none_iff.trans (by simp [Instr.agents, State.OutOfPlace])
  | post => exact barred_eq_none.trans (by simp [Instr.agents, State.OutOfPlace, midFrame_eq_none])
  | sinkdone => exact barred_eq_none.trans (by simp [Instr.agents, State.OutOfPlace])
  | take | render | submit | wait | flip | aperiod =>
    exact barred_eq_none.trans (by simp [Instr.agents, State.OutOfPlace, offPhase_eq_none])

/-- An operation in place, from the agent it belongs to and without a fault, is accepted. -/
theorem exec_of_inPlace {i : Instr} {s : State} {g : Agent} (h : s.MayIssue g) (hp : ¬ s.OutOfPlace i)
    (hg : g ∈ i.agents := by simp [Instr.agents]) (hi : (∀ en, i ≠ .line en) ∧ i ≠ .wait := by simp) :
    exec i s = .next (s.effectOf i) := by
  obtain ⟨hissuer, hfault⟩ := h
  obtain ⟨hline, hwait⟩ := hi
  refine exec_of_accepted ((refusalOf_eq_none_iff hline).mpr ⟨hissuer ▸ hg, .inl hfault, hp⟩) fun hs => hwait hs.1

/-- Settles O9: by the three outcomes of `exec_cases`: only a stuck `WAIT` faults, and then it was accepted in place. -/
theorem onlyAStuckWaitStopsTheMachine : Obligations.OnlyAStuckWaitStopsTheMachine := by
  unfold Obligations.OnlyAStuckWaitStopsTheMachine
  intro i s
  obtain ⟨w, -, he⟩ | ⟨-, -, he⟩ | ⟨⟨rfl, hn, hq, ho⟩, he⟩ := exec_cases i s
  · exact .inl ⟨_, he⟩
  · exact .inl ⟨_, he⟩
  · obtain ⟨hissuer, hfault, hphase⟩ := (refusalOf_eq_none_iff (i := .wait) (by simp)).mp hn
    exact .inr ⟨rfl, ⟨List.mem_singleton.mp hissuer, hfault.resolve_right (by simp)⟩, not_not.mp hphase, hq, ho, he⟩

/-- Settles O10: no operation of the kinds named is accepted (`lineWhy_eq_none_iff`, `refusalOf_eq_none_iff`), and a
refusal leaves the block. -/
theorem refusedCommandsChangeNothing : Obligations.RefusedCommandsChangeNothing := by
  unfold Obligations.RefusedCommandsChangeNothing
  intro i s h
  have hrefused : s.refusalOf i ≠ none := by
    intro hn
    by_cases hline : ∃ en, i = .line en
    · obtain ⟨en, rfl⟩ := hline
      obtain ⟨hissuer, hfault, hlt, hplay⟩ := lineWhy_eq_none_iff.mp hn
      obtain h | (h | h) | ⟨h, -⟩ := h
      · exact h (List.mem_singleton.mpr hissuer)
      · omega
      · exact h hplay
      · rw [hfault] at h; cases h
    · obtain ⟨hissuer, hfault, hplace⟩ := (refusalOf_eq_none_iff (fun en he => hline ⟨en, he⟩)).mp hn
      obtain h | h | ⟨h, hpreset, hlasterr⟩ := h
      · exact h hissuer
      · exact hplace h
      · obtain hf | hf | hf := hfault
        · rw [hf] at h; cases h
        · exact hpreset hf
        · exact hlasterr hf
  obtain ⟨w, -, he⟩ | ⟨hn, -⟩ | ⟨⟨-, hn, -⟩, -⟩ := exec_cases i s
  · exact ⟨_, w, he, refuse_refusedTo s _ w⟩
  · exact absurd hn hrefused
  · exact absurd hn hrefused

end Sys2Proof.Machine

/-!
PROOFS. What a turn is (R54, R68, R104, R117), and the operations whose whole effect is one record update.
-/
namespace Sys2Proof.Machine

/-! ### Turns -/

theorem turnOfCmd_of_ok {c : Cmd} {i : Instr} (h : decode c = .ok i) : turnOfCmd c = .op i := by
  rw [turnOfCmd, h]

theorem turnOfCmd_of_error {c : Cmd} {r : Reject} (h : decode c = .error r) : turnOfCmd c = .reject c r := by
  rw [turnOfCmd, h]

/-- An agent between composites issues the operation its next command names. -/
theorem stepAs_cmd {s : State} {g : Agent} {c : Cmd} {cs : List Cmd} {i : Instr} (hr : s.cpu.run = none)
    (hw : s.workOf g = []) (hc : s.env.cmds.of g = c :: cs) (hd : decode c = .ok i) :
    stepAs g s = exec i { s with env.issuer := g, env.cmds := s.env.cmds.put g cs } :=
  stepAs_op (by rw [fetchAs_cmd hr hw hc, turnOfCmd_of_ok hd])

/-- An agent in the middle of a composite carries out the operation that is its next part. -/
theorem stepAs_work_op {s : State} {g : Agent} {i : Instr} {ks : List Task} (hr : s.cpu.run = none)
    (hw : s.workOf g = .op i :: ks) : stepAs g s = exec i ({ s with env.issuer := g }.putWork g ks) :=
  stepAs_op (by rw [fetchAs_work hr hw]; rfl)

/-- An agent in the middle of a composite carries out the next part that is no operation. -/
theorem stepAs_work_task {s : State} {g : Agent} {k : Task} {ks : List Task} (hr : s.cpu.run = none)
    (hw : s.workOf g = k :: ks) (hk : ∀ i, k ≠ .op i) :
    stepAs g s = .next (({ s with env.issuer := g }.putWork g ks).doTask k) := by
  refine stepAs_task (k := k) ?_
  rw [fetchAs_work hr hw]
  cases k with
  | op i => exact absurd rfl (hk i)
  | _ => rfl

/-! The same for the two contexts, on their own fields. -/

theorem stepAs_p_cmd {s : State} {i : Instr} {cs : List Cmd} (hr : s.cpu.run = none) (hw : s.env.pWork = [])
    (hc : s.env.cmds.p = encode i :: cs) :
    stepAs .p s = exec i { s with env.issuer := .p, env.cmds.p := cs } :=
  stepAs_cmd (g := .p) hr hw hc (decodeInvertsEncode i)

theorem stepAs_p_op {s : State} {i : Instr} {ks : List Task} (hr : s.cpu.run = none) (hw : s.env.pWork = .op i :: ks) :
    stepAs .p s = exec i { s with env.issuer := .p, env.pWork := ks } :=
  stepAs_work_op (g := .p) hr hw

theorem stepAs_p_task {s : State} {k : Task} {ks : List Task} (hr : s.cpu.run = none) (hw : s.env.pWork = k :: ks)
    (hk : ∀ i, k ≠ .op i := by simp) :
    stepAs .p s = .next (State.doTask { s with env.issuer := .p, env.pWork := ks } k) :=
  stepAs_work_task (g := .p) hr hw hk

theorem stepAs_a_cmd {s : State} {i : Instr} {cs : List Cmd} (hr : s.cpu.run = none) (hw : s.env.aWork = [])
    (hc : s.env.cmds.a = encode i :: cs) :
    stepAs .a s = exec i { s with env.issuer := .a, env.cmds.a := cs } :=
  stepAs_cmd (g := .a) hr hw hc (decodeInvertsEncode i)

theorem stepAs_a_op {s : State} {i : Instr} {ks : List Task} (hr : s.cpu.run = none) (hw : s.env.aWork = .op i :: ks) :
    stepAs .a s = exec i { s with env.issuer := .a, env.aWork := ks } :=
  stepAs_work_op (g := .a) hr hw

theorem run_eq_runAs_of_movesAlone (gs : List Agent) (s : State) (h : MovesAlone gs s) :
    run gs.length s = runAs gs s := by
  induction gs generalizing s with
  | nil => rfl
  | cons g gs ih =>
    obtain ⟨hr, hm, hrest⟩ := h
    rw [List.length_cons, run_eq, step_alone hr hm, runAs]
    cases ht : stepAs g s with
    | next t => exact ih t (hrest t ht)
    | fault f => rfl
    | refused r => rfl

/-- Settles O5: a turn between composites issues the command's operation, and `step` is the turn of the one agent drawn.
-/
theorem stepRunsTheNextCommand : Obligations.StepRunsTheNextCommand := by
  unfold Obligations.StepRunsTheNextCommand
  refine ⟨fun s g c cs i hr hw hc hd => ?_, fun s => ⟨rfl, drawAgent_eq s⟩, run_eq_runAs_of_movesAlone⟩
  have h := stepAs_cmd hr hw hc hd
  exact ⟨h, fun hm => (step_alone hr hm).trans h⟩

/-- Settles O6: by what `fetch` finds while a run is in progress. -/
theorem stepInsideARunIsTheCpuUnits : Obligations.StepInsideARunIsTheCpuUnits := by
  unfold Obligations.StepInsideARunIsTheCpuUnits
  refine fun s r hr => ⟨fun c cs i ho hd => ?_, fun ho => ?_⟩
  · rw [step_eq, fetch_inRun hr ho, turnOfCmd_of_ok hd, takeTurn_op]
  · rw [step_eq, fetch_runOver hr ho]
    rfl

/-- Settles O7: a command that decodes to nothing is refused, and an idle turn has nothing to do. -/
theorem turnsWithoutAnOperationChangeNothing : Obligations.TurnsWithoutAnOperationChangeNothing := by
  unfold Obligations.TurnsWithoutAnOperationChangeNothing
  refine fun s g hr hw => ⟨fun c cs r hc hd => ?_, fun hc => ?_⟩
  · rw [stepAs, fetchAs_cmd hr hw hc, turnOfCmd_of_error hd]
    exact ⟨_, rfl, refuse_refusedTo _ c (.undecodable r)⟩
  · rw [stepAs, fetchAs_idle hr hw hc]
    rfl

/-- Settles O8: the head of the work list is taken up before any command. -/
theorem stepCarriesOnWithAComposite : Obligations.StepCarriesOnWithAComposite := by
  unfold Obligations.StepCarriesOnWithAComposite
  intro s g k ks hr hw
  refine ⟨fun i hi => ?_, stepAs_work_task hr hw⟩
  subst hi
  exact stepAs_work_op hr hw

/-! ### Port accesses (R115, R116, R118) -/

theorem exec_portw {s : State} (h : s.MayIssue .c) (hr : s.cpu.run ≠ none) (port : BitVec 16) (data : Byte) :
    exec (.portw port data) s = .next (s.portWrite port data) :=
  exec_of_inPlace h hr

theorem exec_portr {s : State} (h : s.MayIssue .c) (hr : s.cpu.run ≠ none) (port : BitVec 16) :
    exec (.portr port) s = .next (s.portRead port) :=
  exec_of_inPlace h hr

theorem portEven_eq_not (port : BitVec 16) : portEven port = !port.getLsbD 0 := rfl

/-- Settles O11: the write is accepted inside a run, and its port is even. -/
theorem evenPortWriteSetsTheLatches : Obligations.EvenPortWriteSetsTheLatches := by
  unfold Obligations.EvenPortWriteSetsTheLatches
  intro s port data h hr hp
  rw [exec_portw h hr, State.portWrite, portEven_eq_not, hp]
  rfl

/-- Settles O12: neither access reaches the block when bit 0 of the port is 1. -/
theorem oddPortsDoNotReachTheBlock : Obligations.OddPortsDoNotReachTheBlock := by
  unfold Obligations.OddPortsDoNotReachTheBlock
  intro s port data h hr hp
  rw [exec_portw h hr, exec_portr h hr, State.portWrite, State.portRead, portEven_eq_not, hp, ← h.1]
  exact ⟨rfl, rfl⟩

/-- The fields of a byte read from an even port (R90). -/
theorem readByte_fields (ear : Bool) (x : ReadInput) :
    (readByte ear x).getLsbD 6 = ear ∧ (readByte ear x).extractLsb' 0 5 = x.kbd ∧
      (readByte ear x).getLsbD 5 = x.bit5 ∧ (readByte ear x).getLsbD 7 = x.bit7 := by
  obtain ⟨kbd, bit5, bit7⟩ := x
  refine ⟨readByte_ear _ _, ?_, ?_, ?_⟩ <;>
    revert kbd <;> cases ear <;> cases bit5 <;> cases bit7 <;> simp only [readByte] <;> decide

theorem portRead_even {s : State} {port : BitVec 16} (hp : port.getLsbD 0 = false) :
    s.portRead port =
      (s.drawRead (portHigh port)).2.giveBack (.byte (readByte s.lat.ear (s.drawRead (portHigh port)).1)) := by
  rw [State.portRead, portEven_eq_not, hp]
  rfl

/-- Settles O13: the byte's fields are `EAR` and the drawn input's (`readByte_fields`). -/
theorem evenPortReadReturnsTheEarLatch : Obligations.EvenPortReadReturnsTheEarLatch := by
  unfold Obligations.EvenPortReadReturnsTheEarLatch
  intro s port h hr hp
  rw [exec_portr h hr]
  constructor
  · obtain ⟨b, hlog, hbit⟩ := portRead_log s port
    rw [hp, if_neg Bool.false_ne_true] at hbit
    exact ⟨_, b, rfl, by simp [State.SameBlock], h.1 ▸ hlog, hbit⟩
  · intro x xs hx
    refine ⟨readByte s.lat.ear x, ?_, readByte_fields _ x⟩
    rw [portRead_even hp, State.drawRead, hx, ← h.1]
    rfl

/-! ### Operations of the primary context -/

theorem exec_frame {s : State} (en : Bool) (h : s.MayIssue .p) (hl : s.frm.line = 0) (hn : s.NotPlaying) :
    exec (.frame en) s = .next (s.pushP (frameParts en)) :=
  exec_of_inPlace h (by simp [State.OutOfPlace, hl, hn])

theorem exec_eof {s : State} (h : s.MayIssue .p) (hl : s.frm.line = 312) :
    exec .eof s = .next s.frameEnd :=
  exec_of_inPlace h (not_not.mpr hl)

theorem exec_pulse {s : State} {w : BitVec 16} (h : s.MayIssue .p) (hl : s.frm.line = 0) (hw : w ≠ 0#16) :
    exec (.pulse w) s = .next (s.startPulse w.toNat) :=
  exec_of_inPlace h (by simp [State.OutOfPlace, hl, hw])

theorem exec_tplay {s : State} (img : List Byte) (h : s.MayIssue .p) (ht : s.tap.tst = .idle) (hl : s.frm.line = 0) :
    exec (.tplay img) s = .next (s.pushP [.op .mreset, .playLoad img]) :=
  exec_of_inPlace h (by simp [State.OutOfPlace, ht, hl])

/-- Settles O22: `STEADY` is in place where `FRAME` is, and pushes its two parts. -/
theorem steadyIsAFrameThenAPost : Obligations.SteadyIsAFrameThenAPost := by
  unfold Obligations.SteadyIsAFrameThenAPost
  refine ⟨by decide, fun s h hl hn => ?_⟩
  exact exec_of_inPlace h (by simp [State.OutOfPlace, hl, hn])

/-- Settles O28: by `exec_pulse`. -/
theorem pulseTogglesTheEarLatch : Obligations.PulseTogglesTheEarLatch := by
  unfold Obligations.PulseTogglesTheEarLatch
  exact fun s w h hl hw => exec_pulse h hl hw

/-- Settles O33: `TPAUSE` is out of place nowhere. -/
theorem tpauseLowersTheEarLatch : Obligations.TpauseLowersTheEarLatch := by
  unfold Obligations.TpauseLowersTheEarLatch
  intro s h
  exact exec_of_inPlace h not_false

/-- Settles O34: the boot's parts are pushed in their order; the key requests only append to the record. -/
theorem tbootWarmsUpThenTypesTheScript : Obligations.TbootWarmsUpThenTypesTheScript := by
  unfold Obligations.TbootWarmsUpThenTypesTheScript
  refine ⟨fun s h hl hn => ?_, fun s k => ⟨rfl, rfl⟩⟩
  exact exec_of_inPlace h (by simp [State.OutOfPlace, hl, hn])

/-- Settles O39: from either issuer, a level up to 10 is in place. -/
theorem setvolStoresTheLevel : Obligations.SetvolStoresTheLevel := by
  unfold Obligations.SetvolStoresTheLevel
  rintro s level (h | h) hle <;>
    exact exec_of_inPlace h (by simpa [State.OutOfPlace] using hle)

theorem exec_post {s : State} (h : s.MayIssue .p) (hl : s.frm.line = 0) :
    exec .post s = .next (s.postFrame s.frm.acc .beeper) :=
  exec_of_inPlace h (not_not.mpr hl)

/-- Settles O40: by `exec_post` between frames; its three refusals are cases of O10. -/
theorem postHandsOverTheAccumulator : Obligations.PostHandsOverTheAccumulator := by
  unfold Obligations.PostHandsOverTheAccumulator
  refine ⟨by decide, fun s h hl => exec_post h hl, fun s h => refusedCommandsChangeNothing .post s ?_⟩
  obtain h | h | h := h
  · exact .inl (by simpa [Instr.agents] using h)
  · exact .inr (.inr ⟨h, by simp⟩)
  · exact .inr (.inl h)

/-! ### Operations of the audio context, the sink and the host -/

theorem exec_take {s : State} (h : s.MayIssue .a) (hp : s.aud.aph = .take) :
    exec .take s = .next { s.takeFrame with aud.aph := .render } :=
  exec_of_inPlace h (not_not.mpr hp)

/-- Settles O41: by `exec_take` for both values of the ready flag; its refusals are cases of O10. -/
theorem takeCopiesTheMailboxFrame : Obligations.TakeCopiesTheMailboxFrame := by
  unfold Obligations.TakeCopiesTheMailboxFrame
  refine ⟨by decide, fun s h hp hready => ?_, fun s h hp hready => ?_, fun s h => refusedCommandsChangeNothing .take s ?_⟩
  · rw [exec_take h hp, State.takeFrame, hready]
    rfl
  · rw [exec_take h hp, State.takeFrame, hready]
    rfl
  · obtain h | h | h := h
    · exact .inl (by simpa [Instr.agents] using h)
    · exact .inr (.inr ⟨h, by simp⟩)
    · exact .inr (.inl h)

theorem exec_render {s : State} (h : s.MayIssue .a) (hp : s.aud.aph = .render) :
    exec .render s = .next { s with
      aud.pcm := s.aud.pcm.set s.aud.ab s.renderedFrame, aud.sprev := s.renderedCarry, aud.aph := .submit } :=
  exec_of_inPlace h (not_not.mpr hp)

theorem exec_submit {s : State} (h : s.MayIssue .a) (hp : s.aud.aph = .submit) :
    exec .submit s = .next { s with
      snk.sq := s.snk.sq ++ [s.activeBuffer], snk.out := s.snk.out ++ [s.activeBuffer], aud.aph := .wait } :=
  exec_of_inPlace h (not_not.mpr hp)

/-- Settles O45: by `exec_submit`. -/
theorem submitHandsOverTheActiveBuffer : Obligations.SubmitHandsOverTheActiveBuffer := by
  unfold Obligations.SubmitHandsOverTheActiveBuffer
  exact fun s h hp => exec_submit h hp

theorem exec_flip {s : State} (h : s.MayIssue .a) (hp : s.aud.aph = .flip) :
    exec .flip s = .next { s with aud.ab := 1 - s.aud.ab, aud.aph := .take } :=
  exec_of_inPlace h (not_not.mpr hp)

/-- There are two buffers (R37). -/
theorem other_buffer_ne : ∀ b : Fin 2, 1 - b ≠ b := by decide

/-- Settles O47: by `exec_flip`; of two buffers, `1 - b` is the other. -/
theorem flipChangesTheActiveBuffer : Obligations.FlipChangesTheActiveBuffer := by
  unfold Obligations.FlipChangesTheActiveBuffer
  exact fun s h hp => ⟨1 - s.aud.ab, other_buffer_ne _, exec_flip h hp⟩

theorem exec_aperiod {s : State} (h : s.MayIssue .a) (hp : s.aud.aph = .take) :
    exec .aperiod s = .next { s with env.aWork := periodParts ++ s.env.aWork } :=
  exec_of_inPlace h (not_not.mpr hp)

/-- Settles O48: by `exec_aperiod`. -/
theorem aperiodExpandsToItsOperations : Obligations.AperiodExpandsToItsOperations := by
  unfold Obligations.AperiodExpandsToItsOperations
  exact fun s h hp => exec_aperiod h hp

/-- Settles O50: the tail of a queue with head `f` is the rest. -/
theorem sinkdoneFinishesTheOldestFrame : Obligations.SinkdoneFinishesTheOldestFrame := by
  unfold Obligations.SinkdoneFinishesTheOldestFrame
  intro s f fs h hq
  rw [exec_of_inPlace h (by simp [State.OutOfPlace, hq]), State.effectOf, hq]
  rfl

/-! ### Resets and the last error -/

/-- The registers drawn at a reset come from the environment; the rest of it stays. -/
theorem powerOn_cmds (s : State) : s.powerOn.env.cmds = s.env.cmds := (drawRegs_env s).cmds

theorem powerOn_log (s : State) : s.powerOn.log = { s.log with calls := s.log.calls ++ [.reset] } := by
  simp [State.powerOn, State.cpuReset]

theorem exec_preset {s : State} (h : s.env.issuer = .h) : exec .preset s = .next s.powerOn :=
  exec_of_accepted (barredIssuer_eq_none.mpr (List.mem_singleton.mpr h)) (by simp [State.StuckAt])

/-- Settles O51: `PRESET` is refused for its issuer alone, and what it writes is read off field by field. -/
theorem presetGivesEveryResetValue : Obligations.PresetGivesEveryResetValue := by
  unfold Obligations.PresetGivesEveryResetValue
  refine fun s h => ⟨_, exec_preset h, ?_⟩
  refine ⟨rfl, rfl, rfl, rfl, rfl, rfl, rfl, rfl, rfl, rfl, rfl, rfl, rfl, rfl, rfl, rfl, rfl, rfl, rfl, rfl, rfl, rfl,
    rfl, rfl, rfl, rfl, rfl, rfl, rfl, rfl, rfl, rfl, rfl, rfl, rfl, rfl, rfl, powerOn_log s, rfl, rfl, powerOn_cmds s⟩

theorem machineReset_frm (s : State) :
    s.machineReset.frm = { s.frm with line := 0, dur := 0, seen := false, fcyc := 0 } := by
  simp [State.machineReset]

theorem machineReset_log (s : State) : s.machineReset.log = { s.log with calls := s.log.calls ++ [.reset] } := by
  simp [State.machineReset, State.cpuReset]

theorem machineReset_env (s : State) : s.env.Same s.machineReset.env := by
  obtain ⟨h1, h2, h3, h4, h5, h6, h7⟩ := drawRegs_env s
  exact ⟨h1, h2, h3, h4, h5, h6, h7⟩

theorem exec_mreset {s : State} (h : s.MayIssue .p) (ht : s.tap.tst = .idle) : exec .mreset s = .next s.machineReset :=
  exec_of_inPlace h (not_not.mpr ht)

/-- Settles O52: what `MRESET` leaves comes from the lemmas on the machine reset; the rest is what it writes. -/
theorem mresetTouchesOnlyTheMachine : Obligations.MresetTouchesOnlyTheMachine := by
  unfold Obligations.MresetTouchesOnlyTheMachine
  intro s h ht
  have henv := machineReset_env s
  exact ⟨_, exec_mreset h ht, rfl, rfl, machineReset_frm s, by simp, by simp, by simp, by simp, by simp, by simp,
    machineReset_log s, henv.pWork, henv.aWork, henv.cmds⟩

theorem exec_lasterr {s : State} (h : s.env.issuer = .h) :
    exec .lasterr s = .next (s.giveBack (.code s.lastError)) :=
  exec_of_accepted (barredIssuer_eq_none.mpr (List.mem_singleton.mpr h)) (by simp [State.StuckAt])

/-- Settles O53: `LASTERR` is refused for its issuer alone and only gives the code back. -/
theorem lasterrReturnsTheCode : Obligations.LasterrReturnsTheCode := by
  unfold Obligations.LasterrReturnsTheCode
  intro s h
  rw [exec_lasterr h, ← h]
  rfl

end Sys2Proof.Machine

/-!
PROOFS. One scanline (R126 to R131): its two outcomes, the entry it counts, and the null accumulator; the end of the frame
(R132).
-/
namespace Sys2Proof.Machine

/-! ### The two outcomes of a scanline -/

/-- The scanline completed: its run returned 224 and the rest of `LINE` is done (R126). -/
def State.lineDone (s : State) (en : Bool) : State := (s.lineReturned en).lineStore en 224

theorem countFault_eq_some {asked count : Nat} (hc : count ≠ asked) :
    countFault asked count = some (if count = 0 then .cpuZero else .cpuCount) := by
  unfold countFault
  by_cases h0 : count = 0 <;> simp [h0, hc]

theorem exec_line_done {s : State} (en : Bool) (h : s.lineWhy = none) (hc : s.drawRun.1.count = 224) :
    exec (.line en) s = .next (s.lineDone en) := by
  rw [exec_line en h, (countFault_eq_none (by decide)).mpr hc, hc]
  rfl

theorem exec_line_faulted {s : State} (en : Bool) (h : s.lineWhy = none) (hc : s.drawRun.1.count ≠ 224) :
    exec (.line en) s =
      .next ((s.lineReturned en).raise (if s.drawRun.1.count = 0 then .cpuZero else .cpuCount)) := by
  rw [exec_line en h, countFault_eq_some hc]

/-- What a scanline's run leaves of the frame accumulator: `DUR` and `SEEN` as the start set them, but for the port writes;
the diagnostic copy; the rest as it was. -/
theorem lineReturned_frm (s : State) (en : Bool) :
    (s.lineReturned en).frm = { s.frm with
      dur := 0
      seen := (s.lineReturned en).frm.seen
      diag := if s.frm.line = 156 then s.cpu.regs else s.frm.diag
      diagValid := if s.frm.line = 156 then true else s.frm.diagValid } := by
  obtain ⟨-, hline, hdur, hacc, hfcyc, hdiag, hvalid, -⟩ := lineReturned_callFrame s en
  rw [lineStart_eq] at hline hdur hacc hfcyc hdiag hvalid
  generalize (s.lineReturned en).frm = f at *
  cases f
  simp_all

/-- The count of a completed scanline: the whole of it or nothing (R127). -/
theorem lineDone_dur (s : State) (en : Bool) :
    (s.lineDone en).frm.dur = if (s.lineReturned en).frm.seen then 224 else 0 := by
  unfold State.lineDone State.lineStore
  rw [lineReturned_frm s en]

/-- The frame accumulator after a completed scanline. -/
theorem lineDone_frm (s : State) (en : Bool) :
    (s.lineDone en).frm = { (s.lineReturned en).frm with
      dur := (s.lineDone en).frm.dur
      acc := if en then s.frm.acc.setIfInBounds s.frm.line (s.lineDone en).frm.dur else s.frm.acc
      fcyc := s.frm.fcyc + 224
      line := s.frm.line + 1 } := by
  rw [lineDone_dur]
  unfold State.lineDone State.lineStore
  rw [lineReturned_frm s en]

/-- What a scanline's run leaves of the rest of the block and of the environment. -/
theorem lineReturned_rest (s : State) (en : Bool) : s.CallFrame { s.lineReturned en with frm := s.frm } 224 := by
  have h := lineReturned_callFrame s en
  rw [lineStart_eq] at h
  constructor
  case ear => exact h.ear
  case err => exact h.err
  case mbx => exact h.mbx
  case aud => exact h.aud
  case tap => exact h.tap
  case snk => exact h.snk
  case run => exact h.run
  case calls => exact h.calls
  case faultLog => exact h.faultLog
  case keys => exact h.keys
  case issuer => exact h.issuer
  case cmds => exact h.cmds
  case aWork => exact h.aWork
  case pWork => exact h.pWork
  case runs => exact h.runs
  case regsAfter => exact h.regsAfter
  case allocs => exact h.allocs
  all_goals rfl

/-- Settles O15: the completed scanline counts 224 or 0 by `SEEN`, and what the run left is `lineReturned_rest`. -/
theorem lineCountsTheWholeScanlineOrNothing : Obligations.LineCountsTheWholeScanlineOrNothing := by
  unfold Obligations.LineCountsTheWholeScanlineOrNothing
  intro s en h hl hn hc
  have hrest := lineReturned_rest s en
  have hseen := lineReturned_seen h.2 en
  have hlat := lineReturned_lat h.2 en
  have hfrm := lineDone_frm s en
  have hdur := lineDone_dur s en
  refine ⟨_, exec_line_done en (lineWhy_eq_none h hl hn) hc, fun hhigh => ?_, fun hlow => ?_, ?_, ?_, ?_, ?_, hlat,
    fun ho => ?_, lineReturned_records h.2 en, hrest.ear, hrest.err, hrest.mbx, hrest.aud, hrest.tap, hrest.snk,
    lineReturned_cpu s en, hrest.calls, hrest.faultLog, hrest.pWork, hrest.aWork, hrest.cmds⟩
  · rw [hdur, if_pos (hseen.mpr hhigh)]
  · rw [hdur, if_neg (mt hseen.mp hlow)]
  · rw [hfrm]
  · rw [hfrm]
  · rw [hfrm]
  · rw [hfrm]
    exact hseen
  · exact hlat.trans (by rw [ho]; rfl)

/-- Settles O16: the copy is taken before the run, so it stands in both outcomes of the scanline. -/
theorem lineTakesTheDiagnosticCopyAtMidFrame : Obligations.LineTakesTheDiagnosticCopyAtMidFrame := by
  unfold Obligations.LineTakesTheDiagnosticCopyAtMidFrame
  intro s en h hl hn
  have hw := lineWhy_eq_none h hl hn
  have hfrm := lineReturned_frm s en
  by_cases hc : s.drawRun.1.count = 224
  · refine ⟨_, exec_line_done en hw hc, ?_⟩
    rw [lineDone_frm, hfrm]
    exact ⟨fun h156 => ⟨if_pos h156, if_pos h156⟩, fun h156 => ⟨if_neg h156, if_neg h156⟩⟩
  · refine ⟨_, exec_line_faulted en hw hc, ?_⟩
    rw [State.raise_frm, hfrm]
    exact ⟨fun h156 => ⟨if_pos h156, if_pos h156⟩, fun h156 => ⟨if_neg h156, if_neg h156⟩⟩

/-- What a scanline whose run broke its contract leaves (R128, R129). -/
structure State.LineFault (s t : State) (f : ErrCode) : Prop where
  err : t.err = { s.err with fault := true, fcode := f }
  faultLog : t.log.faultLog = s.log.faultLog ++ [f]
  acc : t.frm.acc = s.frm.acc
  line : t.frm.line = s.frm.line
  fcyc : t.frm.fcyc = s.frm.fcyc
  dur : t.frm.dur = 0
  mbx : t.mbx = s.mbx
  aud : t.aud = s.aud
  tap : t.tap = s.tap
  snk : t.snk = s.snk
  ear : t.lat.ear = s.lat.ear
  pWork : t.env.pWork = []
  lat : t.lat = s.lat.afterCmds s.drawRun.1.ops
  records : s.RunRecords t s.drawRun.1.ops

theorem exec_line_fault {s : State} {en : Bool} (h : s.MayIssue .p) (hl : s.frm.line < 312) (hn : s.NotPlaying)
    (hc : s.drawRun.1.count ≠ 224) :
    ∃ t, exec (.line en) s = .next t ∧ s.LineFault t (if s.drawRun.1.count = 0 then .cpuZero else .cpuCount) := by
  have hrest := lineReturned_rest s en
  have hfrm := lineReturned_frm s en
  refine ⟨_, exec_line_faulted en (lineWhy_eq_none h hl hn) hc, ?_⟩
  constructor
  case err => rw [← hrest.err]; rfl
  case faultLog => rw [← hrest.faultLog]; rfl
  case acc | line | fcyc | dur => rw [State.raise_frm, hfrm]
  case mbx => exact hrest.mbx
  case aud => exact hrest.aud
  case tap => exact hrest.tap
  case snk => exact hrest.snk
  case ear => exact hrest.ear
  case pWork => rfl
  case lat => exact lineReturned_lat h.2 en
  case records => exact lineReturned_records h.2 en

/-- Settles O17: the case 0 of `exec_line_fault`; every later operation is refused by O10. -/
theorem lineWithoutCyclesIsFatal : Obligations.LineWithoutCyclesIsFatal := by
  unfold Obligations.LineWithoutCyclesIsFatal
  intro s en h hl hn hc
  obtain ⟨t, ht, hf⟩ := exec_line_fault (en := en) h hl hn (by omega)
  rw [if_pos hc] at hf
  obtain ⟨herr, hlog, hacc, hline, hfcyc, hdur, hmbx, haud, htap, hsnk, hear, hwork, hlat, hrec⟩ := hf
  refine ⟨t, ht, herr, hlog, hacc, hline, hfcyc, hdur, hmbx, haud, htap, hsnk, hear, hwork, hlat, hrec, ?_⟩
  intro i g hpreset hlasterr
  have hfault : t.err.fault = true := by rw [herr]
  obtain ⟨u, w, hu, hsame, hulog⟩ := refusedCommandsChangeNothing i { t with env.issuer := g }
    (.inr (.inr ⟨hfault, hpreset, hlasterr⟩))
  exact ⟨u, hu, hsame, by rw [hulog]; simp⟩

/-- Settles O18: the other case of `exec_line_fault`. -/
theorem lineWithAWrongCountIsFatal : Obligations.LineWithAWrongCountIsFatal := by
  unfold Obligations.LineWithAWrongCountIsFatal
  intro s en h hl hn h0 hc
  obtain ⟨t, ht, hf⟩ := exec_line_fault (en := en) h hl hn hc
  rw [if_neg h0] at hf
  obtain ⟨herr, hlog, hacc, hline, hfcyc, hdur, hmbx, haud, htap, hsnk, hear, hwork, hlat, hrec⟩ := hf
  exact ⟨t, ht, herr, hlog, hacc, hline, hfcyc, hdur, hmbx, haud, htap, hsnk, hear, hwork, hlat, hrec⟩

/-! ### The null accumulator (R130) -/

/-- The same state, the run in progress made for another caller. -/
def State.withUser (s : State) (user : RunUser) : State :=
  { s with cpu.run := s.cpu.run.map fun r => { r with user := user } }

theorem portRead_withUser (s : State) (user : RunUser) (port : BitVec 16) :
    (s.withUser user).portRead port = (s.portRead port).withUser user := by
  have henv : (s.withUser user).env.reads = s.env.reads := rfl
  unfold State.portRead State.drawRead
  rw [henv]
  cases portEven port <;> cases s.env.reads <;> rfl

/-- The CPU unit's commands do not ask who made the call. -/
theorem issueInRun_withUser (s : State) (user : RunUser) (c : Cmd) :
    (s.withUser user).issueInRun c = (s.issueInRun c).withUser user := by
  have hwhy : (s.withUser user).portWhy = s.portWhy := by
    simp [State.portWhy, State.barred, State.withUser]
  unfold State.issueInRun State.doPortw State.doPortr
  rw [hwhy]
  cases hd : decode c with
  | error e => rfl
  | ok i =>
    cases i with
    | portw port data =>
      cases s.portWhy with
      | some w => rfl
      | none =>
        simp only [attempt_done, State.portWrite]
        split <;> rfl
    | portr port =>
      cases s.portWhy with
      | some w => rfl
      | none => exact portRead_withUser s user port
    | _ => rfl

theorem runOps_withUser (user : RunUser) (cs : List Cmd) (s : State) :
    State.runOps cs (s.withUser user) = (State.runOps cs s).withUser user := by
  induction cs generalizing s with
  | nil => rfl
  | cons c cs ih =>
    have hpop : (s.withUser user).popRunOp = s.popRunOp.withUser user := by
      simp only [State.popRunOp, State.withUser, Option.map_map]
      rfl
    rw [State.runOps, hpop, issueInRun_withUser, ih]
    rfl

theorem afterRun_user (s : State) (asked : Nat) (user user' : RunUser) :
    s.afterRun asked user = s.afterRun asked user' := by
  have hopen : s.openRun asked user = (s.openRun asked user').withUser user := rfl
  rw [State.afterRun, hopen, runOps_withUser]
  rfl

/-- Settles O19: a run does not depend on who asked for it (`afterRun_user`), so `en` decides the store alone. -/
theorem nullAccumulatorOnlyDropsTheStore : Obligations.NullAccumulatorOnlyDropsTheStore := by
  unfold Obligations.NullAccumulatorOnlyDropsTheStore
  refine ⟨fun s h hl hn => ?_, fun s en h hl hn => ?_⟩
  · have hw := lineWhy_eq_none h hl hn
    have huser : s.lineReturned false = s.lineReturned true := afterRun_user _ _ _ _
    have hacc : (s.lineReturned true).frm.acc = s.frm.acc := by rw [lineReturned_frm]
    rw [← hacc]
    by_cases hc : s.drawRun.1.count = 224
    · refine ⟨_, exec_line_done true hw hc, ?_⟩
      rw [exec_line_done false hw hc, State.lineDone, huser]
      rfl
    · refine ⟨_, exec_line_faulted true hw hc, ?_⟩
      rw [exec_line_faulted false hw hc, huser]
      rfl
  · exact exec_frame en h hl hn

/-! ### The end of the frame (R132) -/

@[simp] theorem frameEnd_lat (s : State) : s.frameEnd.lat = s.lat := by simp [State.frameEnd]
@[simp] theorem frameEnd_frm (s : State) : s.frameEnd.frm = { s.frm with line := 0, fcyc := 0 } := by
  simp [State.frameEnd]
@[simp] theorem frameEnd_err (s : State) : s.frameEnd.err = s.err := by simp [State.frameEnd]
@[simp] theorem frameEnd_mbx (s : State) : s.frameEnd.mbx = s.mbx := by simp [State.frameEnd]
@[simp] theorem frameEnd_aud (s : State) : s.frameEnd.aud = s.aud := by simp [State.frameEnd]
@[simp] theorem frameEnd_tap (s : State) : s.frameEnd.tap = s.tap := by simp [State.frameEnd]
@[simp] theorem frameEnd_snk (s : State) : s.frameEnd.snk = s.snk := by simp [State.frameEnd]
@[simp] theorem frameEnd_run (s : State) : s.frameEnd.cpu.run = s.cpu.run := by simp [State.frameEnd]

theorem frameEnd_log (s : State) :
    s.frameEnd.log = { s.log with calls := s.log.calls ++
      if s.cpu.regs.iff1 = true ∧ s.cpu.regs.im = .im1 then [.interrupt Config.intVector] else [] } :=
  frameInterrupt_log s

theorem frameEnd_env (s : State) : s.env.Same s.frameEnd.env := frameInterrupt_env s

/-- Settles O20: by the two cases of the interrupt's condition. -/
theorem eofEndsTheFrame : Obligations.EofEndsTheFrame := by
  unfold Obligations.EofEndsTheFrame
  intro s h hl
  constructor
  · intro hi
    have hlog := frameEnd_log s
    rw [if_pos hi] at hlog
    have henv := frameEnd_env s
    exact ⟨_, exec_eof h hl, by simp, hlog, by simp, by simp, by simp, by simp, by simp, by simp, by simp, henv.pWork,
      henv.aWork⟩
  · intro hi
    rw [exec_eof h hl, State.frameEnd, State.frameInterrupt, State.wantsInterrupt, if_neg (by simpa using hi)]

end Sys2Proof.Machine

/-!
PROOFS. A whole frame (R133, R135): the scanlines one after another, by induction over the answers of the CPU unit, then
`EOF`.
-/
namespace Sys2Proof.Machine

theorem drawRun_cons {s : State} {a : RunAnswer} {as : List RunAnswer} (h : s.env.runs = a :: as) :
    s.drawRun.1 = a := by
  rw [State.drawRun, h]

/-- What the scanlines whose runs answer `as` change, one after another. -/
structure State.LinesRun (s t : State) (en : Bool) (as : List RunAnswer) : Prop where
  line : t.frm.line = s.frm.line + as.length
  fcyc : t.frm.fcyc = s.frm.fcyc + 224 * as.length
  diagValid : s.frm.diagValid = true ∨ s.frm.line ≤ 156 ∧ 156 < s.frm.line + as.length → t.frm.diagValid = true
  null : en = false → t.frm.acc = s.frm.acc
  earlier : ∀ k, k < s.frm.line → t.frm.acc.entry k = s.frm.acc.entry k
  allOrNothing : en = true → ∀ j, j < as.length →
    t.frm.acc.entry (s.frm.line + j) = 0 ∨ t.frm.acc.entry (s.frm.line + j) = 224
  raised : en = true → ∀ j a, as[j]? = some a → (∃ c ∈ a.ops, raisesBeeper c) →
    t.frm.acc.entry (s.frm.line + j) = 224
  calls : t.log.calls = s.log.calls ++ List.replicate as.length (.run 224)
  ear : t.lat.ear = s.lat.ear
  err : t.err = s.err
  mbx : t.mbx = s.mbx
  aud : t.aud = s.aud
  tap : t.tap = s.tap
  snk : t.snk = s.snk
  run : t.cpu.run = none
  cmds : t.env.cmds = s.env.cmds
  pWork : s.env.pWork = List.replicate as.length (.op (.line en)) ++ t.env.pWork
  runs : s.env.runs = as ++ t.env.runs

/-- One scanline, carried out by `P` as the next part of its composite. -/
theorem stepAs_line {s : State} {en : Bool} {a : RunAnswer} {ws : List Task} {rest : List RunAnswer}
    (hrun : s.cpu.run = none) (hfault : s.err.fault = false) (hn : s.NotPlaying) (hl : s.frm.line < 312)
    (hc : a.count = 224) (hw : s.env.pWork = .op (.line en) :: ws) (hruns : s.env.runs = a :: rest) :
    ∃ t, stepAs .p s = .next t ∧ s.LinesRun t en [a] ∧ t.env.pWork = ws ∧ t.env.runs = rest := by
  let s1 : State := { s with env.issuer := .p, env.pWork := ws }
  have hdraw : s1.drawRun.1 = a := drawRun_cons hruns
  have hstep : stepAs .p s = .next (s1.lineDone en) :=
    (stepAs_p_op hrun hw).trans (exec_line_done en (lineWhy_eq_none ⟨rfl, hfault⟩ hl hn) (hdraw.symm ▸ hc))
  have hrest := lineReturned_rest s1 en
  have hfrm := lineDone_frm s1 en
  have hdur := lineDone_dur s1 en
  have hret := lineReturned_frm s1 en
  have hacc : (s1.lineDone en).frm.acc =
      if en then s.frm.acc.setIfInBounds s.frm.line (s1.lineDone en).frm.dur else s.frm.acc := by rw [hfrm]
  have hentry : en = true → (s1.lineDone en).frm.acc.entry s.frm.line = (s1.lineDone en).frm.dur := by
    intro hen
    rw [hacc, if_pos hen, entry_set, if_pos ⟨rfl, hl⟩]
  have hpwork : (s1.lineDone en).env.pWork = ws := hrest.pWork
  have hruns' : (s1.lineDone en).env.runs = rest := hrest.runs.trans (by rw [show s1.env.runs = a :: rest from hruns]; rfl)
  refine ⟨_, hstep, ?_, hpwork, hruns'⟩
  constructor
  case line => rw [hfrm]; rfl
  case fcyc => rw [hfrm]; rfl
  case diagValid =>
    rintro (h | ⟨h1, h2⟩)
    · rw [hfrm, hret]
      simp [s1, h]
    · rw [hfrm, hret]
      exact if_pos (show s.frm.line = 156 by rw [List.length_singleton] at h2; omega)
  case null =>
    rintro rfl
    exact hacc
  case earlier =>
    intro k hk
    rw [hacc]
    cases en with
    | false => rfl
    | true => rw [if_pos rfl, entry_set, if_neg (by omega)]
  case allOrNothing =>
    intro hen j hj
    obtain rfl : j = 0 := by simpa using hj
    rw [Nat.add_zero, hentry hen, hdur]
    cases (s1.lineReturned en).frm.seen <;> simp
  case raised =>
    intro hen j b hj hb
    obtain ⟨rfl, rfl⟩ : j = 0 ∧ b = a := by
      cases j with
      | zero => exact ⟨rfl, (Option.some.inj hj).symm⟩
      | succ j => cases hj
    have hseen := (lineReturned_seen (s := s1) hfault en).mpr (.inr (hdraw.symm ▸ hb))
    rw [Nat.add_zero, hentry hen, hdur, if_pos hseen]
  case calls => exact hrest.calls
  case ear => exact hrest.ear
  case err => exact hrest.err
  case mbx => exact hrest.mbx
  case aud => exact hrest.aud
  case tap => exact hrest.tap
  case snk => exact hrest.snk
  case run => exact hrest.run
  case cmds => exact hrest.cmds
  case pWork => rw [hpwork, hw]; rfl
  case runs => rw [hruns', hruns]; rfl

theorem linesRun_nil {s : State} {en : Bool} (h : s.cpu.run = none) : s.LinesRun s en [] := by
  constructor
  case diagValid =>
    rintro (h | ⟨h1, h2⟩)
    · exact h
    · rw [List.length_nil] at h2
      omega
  case run => exact h
  all_goals simp

/-- A scanline followed by others. -/
theorem linesRun_cons {s t u : State} {en : Bool} {a : RunAnswer} {as : List RunAnswer} (h : s.LinesRun t en [a])
    (k : t.LinesRun u en as) : s.LinesRun u en (a :: as) := by
  have hline : t.frm.line = s.frm.line + 1 := h.line
  have hnext : ∀ j, s.frm.line + (j + 1) = t.frm.line + j := fun j => by omega
  have hthis : u.frm.acc.entry s.frm.line = t.frm.acc.entry s.frm.line := k.earlier _ (by omega)
  constructor
  case line => rw [k.line, hline, List.length_cons]; omega
  case fcyc => rw [k.fcyc, h.fcyc, List.length_singleton, List.length_cons]; omega
  case diagValid =>
    intro hd
    rw [List.length_cons] at hd
    by_cases hlater : t.frm.line ≤ 156 ∧ 156 < t.frm.line + as.length
    · exact k.diagValid (.inr hlater)
    · refine k.diagValid (.inl (h.diagValid ?_))
      rw [List.length_singleton]
      obtain hd | hd := hd
      · exact .inl hd
      · exact .inr (by omega)
  case null => exact fun hen => (k.null hen).trans (h.null hen)
  case earlier => exact fun j hj => (k.earlier j (by omega)).trans (h.earlier j hj)
  case allOrNothing =>
    intro hen j hj
    cases j with
    | zero => rw [Nat.add_zero, hthis]; exact h.allOrNothing hen 0 (by simp)
    | succ j => rw [hnext]; exact k.allOrNothing hen j (by simpa using hj)
  case raised =>
    intro hen j b hj hb
    cases j with
    | zero => rw [Nat.add_zero, hthis]; exact h.raised hen 0 b (by simpa using hj) hb
    | succ j => rw [hnext]; exact k.raised hen j b (by simpa using hj) hb
  case calls => rw [k.calls, h.calls, List.append_assoc]; rfl
  case ear => exact k.ear.trans h.ear
  case err => exact k.err.trans h.err
  case mbx => exact k.mbx.trans h.mbx
  case aud => exact k.aud.trans h.aud
  case tap => exact k.tap.trans h.tap
  case snk => exact k.snk.trans h.snk
  case run => exact k.run
  case cmds => exact k.cmds.trans h.cmds
  case pWork => rw [h.pWork, k.pWork]; rfl
  case runs => rw [h.runs, k.runs]; rfl

/-- Scanlines one after another, the CPU unit keeping its contract in each. -/
theorem runAs_lines (en : Bool) (as : List RunAnswer) (ws : List Task) (rest : List RunAnswer) :
    ∀ s : State, s.cpu.run = none → s.err.fault = false → s.NotPlaying → s.frm.line + as.length ≤ 312 →
      (∀ a ∈ as, a.count = 224) → s.env.pWork = List.replicate as.length (.op (.line en)) ++ ws →
      s.env.runs = as ++ rest →
      ∃ t, runAs (List.replicate as.length .p) s = .next t ∧ s.LinesRun t en as ∧ t.env.pWork = ws ∧
        t.env.runs = rest := by
  induction as with
  | nil => exact fun s hrun _ _ _ _ hw hruns => ⟨s, rfl, linesRun_nil hrun, hw, hruns⟩
  | cons a as ih =>
    intro s hrun hfault hn hl hc hw hruns
    obtain ⟨hca, hcas⟩ := List.forall_mem_cons.mp hc
    rw [List.length_cons] at hl
    obtain ⟨t, hstep, hline, htw, htr⟩ := stepAs_line hrun hfault hn (by omega) hca hw hruns
    obtain ⟨u, hrunAs, hlines, huw, hur⟩ := ih t hline.run (hline.err ▸ hfault)
      (by rw [State.NotPlaying, hline.tap]; exact hn) (by rw [hline.line, List.length_singleton]; omega) hcas htw htr
    refine ⟨u, ?_, linesRun_cons hline hlines, huw, hur⟩
    rw [List.length_cons, List.replicate_succ, runAs_cons _ hstep, hrunAs]

/-- Settles O21: the command, 312 scanlines (`runAs_lines`), then `EOF`, one run after another. -/
theorem frameRunsToItsEnd : Obligations.FrameRunsToItsEnd := by
  unfold Obligations.FrameRunsToItsEnd
  intro s en cs as rest hrun hfault hl hfcyc hn hw hcmd hruns hlen hc
  let s1 : State := { s with
    env.issuer := .p, env.cmds.p := cs, env.pWork := frameParts en ++ s.env.pWork }
  have hfirst : stepAs .p s = .next s1 := (stepAs_p_cmd hrun hw hcmd).trans (exec_frame en ⟨rfl, hfault⟩ hl hn)
  have hparts : s1.env.pWork = List.replicate 312 (.op (.line en)) ++ [.op .eof] :=
    (congrArg (frameParts en ++ ·) hw).trans (List.append_nil _)
  have hl1 : s1.frm.line = 0 := hl
  obtain ⟨t, hlines, h, htw, htr⟩ := runAs_lines en as [.op .eof] rest s1 hrun hfault hn (by rw [hl1, hlen]) hc
    (by rw [hlen]; exact hparts) hruns
  let t1 : State := { t with env.issuer := .p, env.pWork := [] }
  have hlast : stepAs .p t = .next t1.frameEnd :=
    (stepAs_p_op h.run htw).trans
      (exec_eof ⟨rfl, (congrArg Errors.fault h.err).trans hfault⟩ (h.line.trans (by rw [hl1, hlen])))
  have hturns : List.replicate 314 Agent.p = .p :: (List.replicate as.length .p ++ [.p]) := by
    rw [hlen, ← List.replicate_succ', ← List.replicate_succ]
  have hall := calc runAs (List.replicate 314 .p) s
    _ = runAs (List.replicate as.length .p ++ [.p]) s1 := by rw [hturns, runAs_cons _ hfirst]
    _ = runAs [.p] t := runAs_append hlines
    _ = runAs [] t1.frameEnd := runAs_cons [] hlast
  have hfrm : t1.frameEnd.frm = { t.frm with line := 0, fcyc := 0 } := frameEnd_frm t1
  have henv := frameEnd_env t1
  have hentry : ∀ k, s1.frm.line + k = k := fun k => by rw [hl1, Nat.zero_add]
  refine ⟨_, hall, by rw [hfrm], by rw [hfrm], by simpa using h.err, ?diagValid, fun hen => ?null,
    fun hen => ⟨?allOrNothing, ?raised⟩, ?calls, by simpa using h.ear, by simpa using h.mbx, by simpa using h.aud,
    by simpa using h.tap, by simpa using h.snk, by simpa using h.run, henv.pWork,
    congrArg Pending.p (henv.cmds.trans h.cmds), henv.runs.trans htr⟩
  case diagValid =>
    rw [hfrm]
    exact h.diagValid (.inr (by rw [hl1, hlen]; decide))
  case null =>
    rw [hfrm]
    exact h.null hen
  case allOrNothing =>
    intro k hk
    rw [hfrm, ← hentry k]
    exact h.allOrNothing hen k (by omega)
  case raised =>
    intro k a _ ha hraise
    rw [hfrm, ← hentry k]
    exact h.raised hen k a ha hraise
  case calls =>
    have hcalls : t1.log.calls = s.log.calls ++ List.replicate 312 (.run 224) := hlen ▸ h.calls
    rw [frameEnd_log, ← hcalls]
    split
    · exact .inr rfl
    · exact .inl (List.append_nil _)

end Sys2Proof.Machine

/-!
PROOFS. One chunk of a pulse (R150 to R152): its three outcomes, and the tape line and tape frame it may end.
-/
namespace Sys2Proof.Machine

/-! ### The end of a tape frame -/

theorem completeFrame_rlog (s : State) :
    s.completeFrame.snk.rlog = s.snk.rlog ++
      if 0 < Config.refreshPeriod ∧ (s.tap.tfr + 1) % Config.refreshPeriod = 0 then [(s.tap.tbi, s.tap.tpi)] else [] := by
  unfold State.completeFrame
  rw [throttledRefresh_rlog]
  simp

/-- What the emission of the 312th tape line leaves (R152). -/
structure State.TapeFrameEnd (s t : State) : Prop where
  mbx : t.mbx = ⟨s.tap.tacc.setIfInBounds 311 (if s.lat.ear then 224 else 0), true, .tape⟩
  tap : t.tap = { s.tap with
    tacc := s.tap.tacc.setIfInBounds 311 (if s.lat.ear then 224 else 0), tln := 0, tfr := s.tap.tfr + 1 }
  lat : t.lat = s.lat
  frm : t.frm = s.frm
  err : t.err = s.err
  aud : t.aud = s.aud
  sq : t.snk.sq = s.snk.sq
  out : t.snk.out = s.snk.out
  calls : t.log.calls = s.log.calls ++
    if s.cpu.regs.iff1 = true ∧ s.cpu.regs.im = .im1 then [.interrupt Config.intVector] else []
  rlog : t.snk.rlog = s.snk.rlog ++
    if 0 < Config.refreshPeriod ∧ (s.tap.tfr + 1) % Config.refreshPeriod = 0 then [(s.tap.tbi, s.tap.tpi)] else []

theorem emitLine_last {s : State} (h : s.tap.tln = 311) : s.TapeFrameEnd s.emitLine := by
  have hemit : s.emitLine = s.lineWritten.completeFrame := by rw [emitLine_eq, if_pos h]
  have htacc : s.lineWritten.tap.tacc = s.tap.tacc.setIfInBounds 311 (if s.lat.ear then 224 else 0) := by
    rw [← h]; rfl
  obtain ⟨hmbx, htap, -, hsq, hout⟩ := completeFrame_spec s.lineWritten
  rw [htacc] at hmbx
  rw [hemit]
  constructor
  case mbx => exact hmbx
  case tap => rw [htap, ← htacc]; rfl
  case sq => exact hsq
  case out => exact hout
  case calls => rw [completeFrame_log]; rfl
  case rlog => rw [completeFrame_rlog]; rfl
  all_goals simp; rfl

@[simp] theorem emitLine_sq (s : State) : s.emitLine.snk.sq = s.snk.sq := by
  by_cases h : s.tap.tln = 311
  · exact (emitLine_last h).sq
  · rw [(emitLine_of_ne h).2.1]

@[simp] theorem emitLine_out (s : State) : s.emitLine.snk.out = s.snk.out := by
  by_cases h : s.tap.tln = 311
  · exact (emitLine_last h).out
  · rw [(emitLine_of_ne h).2.1]

/-! ### The outcomes of a chunk -/

/-- The chunk's run has returned. -/
def State.chunkReturned (s : State) (n : Nat) : State := s.afterRun (min n (224 - s.tap.tphase)) (.chunk n)

/-- What a chunk that goes up to the line's end leaves to be run. -/
def State.afterChunk (s : State) (n : Nat) : List Task :=
  if n ≤ 224 - s.tap.tphase then s.env.pWork else .chunk (n - (224 - s.tap.tphase)) :: s.env.pWork

/-- The chunk's run has returned at the line's end, which is then emitted. -/
def State.atLineEnd (s : State) (n : Nat) : State :=
  { s.chunkReturned n with tap.tphase := 0, env.pWork := s.afterChunk n }

theorem chunkReturned_callFrame (s : State) (n : Nat) :
    s.CallFrame (s.chunkReturned n) (min n (224 - s.tap.tphase)) :=
  afterRun_callFrame _ _ _

/-- A run that breaks its contract is the fatal fault (R128, R129). -/
theorem doChunk_faulted {s : State} {n : Nat} (hn : 1 ≤ n) (hc : s.drawRun.1.count ≠ min n (224 - s.tap.tphase)) :
    s.doChunk n = (s.chunkReturned n).raise (if s.drawRun.1.count = 0 then .cpuZero else .cpuCount) := by
  have h := countFault_eq_some (asked := s.chunkLength n) hc
  rw [doChunk_eq hn, h]
  rfl

theorem doChunk_done {s : State} {n : Nat} (hn : 1 ≤ n) (hp : s.tap.tphase ≤ 223)
    (hc : s.drawRun.1.count = min n (224 - s.tap.tphase)) :
    s.doChunk n = (s.chunkReturned n).chunkStore n (min n (224 - s.tap.tphase)) := by
  have hpos : 0 < min n (224 - s.tap.tphase) := by omega
  have h : countFault (s.chunkLength n) s.drawRun.1.count = none := (countFault_eq_none hpos).mpr hc
  rw [doChunk_eq hn, h]
  rfl

/-- Short of the line's end only `TPHASE` moves (R150). -/
theorem doChunk_short {s : State} {n : Nat} (hn : 1 ≤ n) (hp : n < 224 - s.tap.tphase) (hc : s.drawRun.1.count = n) :
    s.doChunk n = { s.chunkReturned n with tap.tphase := (s.chunkReturned n).tap.tphase + n } := by
  have hmin : min n (224 - s.tap.tphase) = n := by omega
  have htap := (chunkReturned_callFrame s n).tap
  rw [doChunk_done hn (by omega) (hc.trans hmin.symm), chunkStore_eq, hmin, if_neg (by rw [htap]; omega), Nat.sub_self,
    if_neg (Nat.lt_irrefl 0)]

/-- At the line's end the line is emitted (R150, R151). -/
theorem doChunk_full {s : State} {n : Nat} (hp : s.tap.tphase ≤ 223) (hn : 224 - s.tap.tphase ≤ n)
    (hc : s.drawRun.1.count = 224 - s.tap.tphase) : s.doChunk n = (s.atLineEnd n).emitLine := by
  have hmin : min n (224 - s.tap.tphase) = 224 - s.tap.tphase := by omega
  have hframe := chunkReturned_callFrame s n
  have hwork : (if 0 < n - (224 - s.tap.tphase) then
      .chunk (n - (224 - s.tap.tphase)) :: (s.chunkReturned n).env.pWork else (s.chunkReturned n).env.pWork) =
      s.afterChunk n := by
    rw [hframe.pWork, State.afterChunk]
    by_cases hle : n ≤ 224 - s.tap.tphase
    · rw [if_neg (by omega), if_pos hle]
    · rw [if_pos (by omega), if_neg hle]
  rw [doChunk_done (by omega) hp (hc.trans hmin.symm), chunkStore_eq, hmin, if_pos (by rw [hframe.tap]; omega), hwork]
  rfl

/-- What the line's end finds of `s`. -/
theorem atLineEnd_callFrame (s : State) (n : Nat) :
    s.CallFrame { s.atLineEnd n with tap := s.tap, env.pWork := s.env.pWork } (min n (224 - s.tap.tphase)) := by
  have h := chunkReturned_callFrame s n
  exact { h with tap := rfl, pWork := rfl }

theorem atLineEnd_tap (s : State) (n : Nat) : (s.atLineEnd n).tap = { s.tap with tphase := 0 } := by
  rw [← (chunkReturned_callFrame s n).tap]
  rfl

theorem chunkReturned_regs (s : State) (n : Nat) : (s.chunkReturned n).cpu.regs = s.drawRun.1.regs := rfl

/-- What a chunk comes to: nothing to run; the fatal fault; short of the line's end; or at the line's end. -/
theorem doChunk_cases (s : State) (n : Nat) :
    (n = 0 ∧ s.doChunk n = s) ∨
      1 ≤ n ∧ ((∃ f, s.doChunk n = (s.chunkReturned n).raise f) ∨
        (n < 224 - s.tap.tphase ∧
          s.doChunk n = { s.chunkReturned n with tap.tphase := (s.chunkReturned n).tap.tphase + n }) ∨
        (s.tap.tphase ≤ 223 ∧ 224 - s.tap.tphase ≤ n ∧ s.doChunk n = (s.atLineEnd n).emitLine)) := by
  obtain rfl | hn : n = 0 ∨ 1 ≤ n := by omega
  · exact .inl ⟨rfl, rfl⟩
  refine .inr ⟨hn, ?_⟩
  cases hf : countFault (s.chunkLength n) s.drawRun.1.count with
  | some f => exact .inl ⟨f, by rw [doChunk_eq hn, hf]; rfl⟩
  | none =>
    have hpos : 0 < s.chunkLength n := by
      by_contra h0
      rw [show s.chunkLength n = 0 by omega] at hf
      simp [countFault] at hf
    have hc : s.drawRun.1.count = min n (224 - s.tap.tphase) := (countFault_eq_none hpos).mp hf
    have hpos' : 0 < min n (224 - s.tap.tphase) := hpos
    by_cases hshort : n < 224 - s.tap.tphase
    · exact .inr (.inl ⟨hshort, doChunk_short hn hshort (by omega)⟩)
    · exact .inr (.inr ⟨by omega, by omega, doChunk_full (by omega) (by omega) (by omega)⟩)

/-- Whatever a chunk comes to, what its run left stays, but for the tape, the mailbox, the refresh calls, the calls
recorded, the fault and the work list. -/
theorem doChunk_frame {s : State} {n : Nat} (hn : 1 ≤ n) :
    (s.doChunk n).frm = (s.chunkReturned n).frm ∧ (s.doChunk n).lat = (s.chunkReturned n).lat ∧
      (s.doChunk n).log = { (s.chunkReturned n).log with
        calls := (s.doChunk n).log.calls, faultLog := (s.doChunk n).log.faultLog } := by
  obtain ⟨h0, -⟩ | ⟨-, ⟨f, h⟩ | ⟨-, h⟩ | ⟨-, -, h⟩⟩ := doChunk_cases s n
  · omega
  · rw [h]
    exact ⟨rfl, rfl, rfl⟩
  · rw [h]
    exact ⟨rfl, rfl, rfl⟩
  · rw [h, State.emitLine_frm, State.emitLine_lat, emitLine_log]
    exact ⟨rfl, rfl, rfl⟩

/-- The run of a chunk leaves the frame accumulator but for `SEEN`. -/
theorem chunkReturned_frm (s : State) (n : Nat) :
    (s.chunkReturned n).frm = { s.frm with seen := (s.chunkReturned n).frm.seen } := by
  obtain ⟨-, hline, hdur, hacc, hfcyc, hdiag, hvalid, -⟩ := chunkReturned_callFrame s n
  generalize (s.chunkReturned n).frm = f at *
  cases f
  simp_all

/-- A chunk that keeps its contract, up to the line's end or short of it. -/
structure State.ChunkKept (s t : State) (n : Nat) : Prop where
  ear : t.lat.ear = s.lat.ear
  err : t.err = s.err
  aud : t.aud = s.aud
  acc : t.frm.acc = s.frm.acc
  line : t.frm.line = s.frm.line
  sq : t.snk.sq = s.snk.sq
  out : t.snk.out = s.snk.out
  run : t.cpu.run = none
  cmds : t.env.cmds = s.env.cmds
  runs : t.env.runs = s.env.runs.tail
  pWork : t.env.pWork = s.afterChunk n

theorem doChunk_kept {s : State} {n : Nat} (hn : 1 ≤ n) (hp : s.tap.tphase ≤ 223)
    (hc : s.drawRun.1.count = min n (224 - s.tap.tphase)) : s.ChunkKept (s.doChunk n) n := by
  by_cases hshort : n < 224 - s.tap.tphase
  · have h := chunkReturned_callFrame s n
    rw [doChunk_short hn hshort (by omega)]
    have hwork : s.afterChunk n = s.env.pWork := if_pos (by omega)
    exact ⟨h.ear, h.err, h.aud, h.acc, h.line, congrArg _ h.snk, congrArg _ h.snk, h.run, h.cmds, h.runs,
      h.pWork.trans hwork.symm⟩
  · have h := atLineEnd_callFrame s n
    have henv := emitLine_env (s.atLineEnd n)
    rw [doChunk_full hp (by omega) (by omega)]
    constructor
    case ear => rw [State.emitLine_lat]; exact h.ear
    case err => rw [State.emitLine_err]; exact h.err
    case aud => rw [State.emitLine_aud]; exact h.aud
    case acc => rw [State.emitLine_frm]; exact h.acc
    case line => rw [State.emitLine_frm]; exact h.line
    case sq => rw [emitLine_sq]; exact congrArg _ h.snk
    case out => rw [emitLine_out]; exact congrArg _ h.snk
    case run => rw [emitLine_run]; exact h.run
    case cmds => exact henv.cmds.trans h.cmds
    case runs => exact henv.runs.trans h.runs
    case pWork => exact henv.pWork

/-- The tape, the mailbox, the outputs and the calls after a chunk that keeps its contract short of the line's end. -/
theorem doChunk_short_rest {s : State} {n : Nat} (hn : 1 ≤ n) (hp : n < 224 - s.tap.tphase)
    (hc : s.drawRun.1.count = n) :
    (s.doChunk n).tap = { s.tap with tphase := s.tap.tphase + n } ∧ (s.doChunk n).mbx = s.mbx ∧
      (s.doChunk n).snk = s.snk ∧ (s.doChunk n).log.calls = s.log.calls ++ [.run n] := by
  have h := chunkReturned_callFrame s n
  rw [show min n (224 - s.tap.tphase) = n by omega] at h
  rw [doChunk_short hn hp hc, ← h.tap]
  exact ⟨rfl, h.mbx, h.snk, h.calls⟩

/-- The tape after a chunk that keeps its contract up to the line's end. -/
theorem doChunk_full_tap {s : State} {n : Nat} (hp : s.tap.tphase ≤ 223) (hn : 224 - s.tap.tphase ≤ n)
    (hc : s.drawRun.1.count = 224 - s.tap.tphase) :
    (s.doChunk n).tap = { s.tap with
      tphase := 0
      tacc := s.tap.tacc.setIfInBounds s.tap.tln (if s.lat.ear then 224 else 0)
      tln := if s.tap.tln = 311 then 0 else s.tap.tln + 1
      tfr := if s.tap.tln = 311 then s.tap.tfr + 1 else s.tap.tfr } := by
  have hear : (s.atLineEnd n).lat.ear = s.lat.ear := (atLineEnd_callFrame s n).ear
  rw [doChunk_full hp hn hc, emitLine_tap, hear, atLineEnd_tap]

/-- The mailbox, the outputs and the calls after a chunk that keeps its contract up to the end of a line that is not the
312th. -/
theorem doChunk_full_rest {s : State} {n : Nat} (hp : s.tap.tphase ≤ 223) (hn : 224 - s.tap.tphase ≤ n)
    (hc : s.drawRun.1.count = 224 - s.tap.tphase) (htln : s.tap.tln ≠ 311) :
    (s.doChunk n).mbx = s.mbx ∧ (s.doChunk n).snk = s.snk ∧
      (s.doChunk n).log.calls = s.log.calls ++ [.run (224 - s.tap.tphase)] := by
  have h := atLineEnd_callFrame s n
  rw [show min n (224 - s.tap.tphase) = 224 - s.tap.tphase by omega] at h
  have hne : (s.atLineEnd n).tap.tln ≠ 311 := by rw [atLineEnd_tap]; exact htln
  obtain ⟨hmbx, hsnk, -, hlog⟩ := emitLine_of_ne hne
  rw [doChunk_full hp hn hc, hmbx, hsnk, hlog]
  exact ⟨h.mbx, h.snk, h.calls⟩

/-- Settles O29: the records and the latches whatever the count, then the chunk that keeps its contract short of the
line's end or up to it, then the fault. -/
theorem chunkRunsUpToTheLineBoundary : Obligations.ChunkRunsUpToTheLineBoundary := by
  unfold Obligations.ChunkRunsUpToTheLineBoundary
  intro s n hn hp
  refine ⟨⟨s.doChunk n, rfl, ?_⟩, fun hc => ⟨s.doChunk n, rfl, ?_⟩, fun hc => ⟨s.doChunk n, rfl, ?_⟩⟩
  · obtain ⟨hfrm, hlat, hlog⟩ := doChunk_frame (s := s) hn
    rw [hfrm, hlat, State.RunRecords, hlog]
    exact ⟨chunkReturned_frm s n, fun hf => ⟨afterRun_seen hf _ _, afterRun_lat hf _ _, afterRun_records hf _ _⟩⟩
  · have hkept := doChunk_kept hn hp hc
    refine ⟨hkept.ear, hkept.err, hkept.aud, hkept.acc, hkept.line, hkept.pWork, fun hshort => ?_,
      fun hfull htln => ?_, fun hcalls => ?_⟩
    · obtain ⟨htap, hmbx, hsnk, -⟩ := doChunk_short_rest hn hshort (by omega)
      exact ⟨htap, hmbx, hsnk⟩
    · have htap := doChunk_full_tap hp hfull (by omega)
      obtain ⟨hmbx, hsnk, -⟩ := doChunk_full_rest hp hfull (by omega) htln
      rw [if_neg htln, if_neg htln] at htap
      exact ⟨htap, hmbx, hsnk⟩
    · by_cases hshort : n < 224 - s.tap.tphase
      · obtain ⟨-, -, -, hrun⟩ := doChunk_short_rest hn hshort (by omega)
        rw [hrun, Nat.min_eq_left (by omega)]
      · obtain ⟨-, -, hrun⟩ := doChunk_full_rest (n := n) hp (by omega) (by omega) (hcalls.resolve_left hshort)
        rw [hrun, Nat.min_eq_right (by omega)]
  · have h := chunkReturned_callFrame s n
    rw [doChunk_faulted hn hc]
    exact ⟨by rw [← h.err]; rfl, by rw [← h.faultLog]; rfl, h.calls, h.tap, h.mbx, h.snk, h.aud, h.ear, h.acc, h.line, rfl⟩

/-- Settles O30: by `emitLine_last`, on the state itself and on what the chunk's run leaves. -/
theorem tapeFrameCompletionPostsTheFrame : Obligations.TapeFrameCompletionPostsTheFrame := by
  unfold Obligations.TapeFrameCompletionPostsTheFrame
  intro s htln F
  have h := emitLine_last htln
  refine ⟨h.mbx, h.tap, h.lat, h.frm, h.err, h.aud, h.sq, h.out, h.calls, h.rlog, fun n hp hn hc => ?_⟩
  have hmin : min n (224 - s.tap.tphase) = 224 - s.tap.tphase := by omega
  have hend := atLineEnd_callFrame s n
  have htap := atLineEnd_tap s n
  have hear : (s.atLineEnd n).lat.ear = s.lat.ear := hend.ear
  have hk := emitLine_last (s := s.atLineEnd n) (by rw [htap]; exact htln)
  have hkept := doChunk_kept (n := n) (by omega) hp (hc.trans hmin.symm)
  obtain ⟨hfrm, -⟩ := doChunk_frame (s := s) (n := n) (by omega)
  have hdone := doChunk_full hp hn hc
  refine ⟨s.doChunk n, rfl, ?mbx, ?tap, hkept.ear, ?frm, hkept.err, hkept.aud, hkept.sq, hkept.out, ?calls, ?rlog, hkept.pWork⟩
  case mbx => rw [hdone, hk.mbx, htap, hear]
  case tap => rw [hdone, hk.tap, htap, hear]
  case frm => rw [hfrm]; exact chunkReturned_frm s n
  case calls =>
    have hcalls : (s.atLineEnd n).log.calls = _ := hend.calls
    rw [hdone, hk.calls, hcalls, hmin]
    rfl
  case rlog =>
    have hsnk : (s.atLineEnd n).snk = s.snk := hend.snk
    rw [hdone, hk.rlog, htap, hsnk]

end Sys2Proof.Machine

/-!
PROOFS. What each operation, and each part of a composite, can touch, group by group; and what follows for every step of
the machine.
-/
namespace Sys2Proof.Machine

/-! ### What each operation leaves -/

/-- The effect of `LINE` is the completed scanline or the fatal fault (R126, R128, R129). -/
theorem effectOf_line_cases (s : State) (en : Bool) :
    s.effectOf (.line en) = s.lineDone en ∨ ∃ f, s.effectOf (.line en) = (s.lineReturned en).raise f := by
  have h : s.effectOf (.line en) = match countFault 224 s.drawRun.1.count with
      | some f => (s.lineReturned en).raise f
      | none => (s.lineReturned en).lineStore en s.drawRun.1.count := by
    show s.lineStart.cpuRun 224 (.line en) = _
    rw [cpuRun_eq, lineStart_drawRun]
    rfl
  rw [h]
  cases hf : countFault 224 s.drawRun.1.count with
  | some f => exact .inr ⟨f, rfl⟩
  | none => exact .inl (by rw [(countFault_eq_none (by decide)).mp hf]; rfl)

/-- What `LINE` leaves, whatever its run returns, and the one call it makes. -/
structure State.LineRest (s t : State) : Prop where
  ear : t.lat.ear = s.lat.ear
  mbx : t.mbx = s.mbx
  aud : t.aud = s.aud
  tap : t.tap = s.tap
  snk : t.snk = s.snk
  run : t.cpu.run = none
  calls : t.log.calls = s.log.calls ++ [.run 224]

theorem effectOf_line_rest (s : State) (en : Bool) : s.LineRest (s.effectOf (.line en)) := by
  have h := lineReturned_rest s en
  obtain he | ⟨f, he⟩ := effectOf_line_cases s en
  · rw [he]
    exact ⟨h.ear, h.mbx, h.aud, h.tap, h.snk, h.run, h.calls⟩
  · rw [he]
    exact ⟨h.ear, h.mbx, h.aud, h.tap, h.snk, h.run, h.calls⟩

@[simp] theorem takeFrame_pcm (s : State) : s.takeFrame.aud.pcm = s.aud.pcm := by unfold State.takeFrame; split <;> rfl
@[simp] theorem takeFrame_vol (s : State) : s.takeFrame.aud.vol = s.aud.vol := by unfold State.takeFrame; split <;> rfl

@[simp] theorem waitOn_lat (s : State) : s.waitOn.lat = s.lat := by unfold State.waitOn; split <;> rfl
@[simp] theorem waitOn_frm (s : State) : s.waitOn.frm = s.frm := by unfold State.waitOn; split <;> rfl
@[simp] theorem waitOn_err (s : State) : s.waitOn.err = s.err := by unfold State.waitOn; split <;> rfl
@[simp] theorem waitOn_mbx (s : State) : s.waitOn.mbx = s.mbx := by unfold State.waitOn; split <;> rfl
@[simp] theorem waitOn_tap (s : State) : s.waitOn.tap = s.tap := by unfold State.waitOn; split <;> rfl
@[simp] theorem waitOn_snk (s : State) : s.waitOn.snk = s.snk := by unfold State.waitOn; split <;> rfl
@[simp] theorem waitOn_cpu (s : State) : s.waitOn.cpu = s.cpu := by unfold State.waitOn; split <;> rfl
@[simp] theorem waitOn_log (s : State) : s.waitOn.log = s.log := by unfold State.waitOn; split <;> rfl
@[simp] theorem waitOn_vol (s : State) : s.waitOn.aud.vol = s.aud.vol := by unfold State.waitOn; split <;> rfl
@[simp] theorem waitOn_pcm (s : State) : s.waitOn.aud.pcm = s.aud.pcm := by unfold State.waitOn; split <;> rfl
@[simp] theorem startBlock_lat (s : State) (i : Nat) : (s.startBlock i).lat = s.lat := rfl
@[simp] theorem startBlock_frm (s : State) (i : Nat) : (s.startBlock i).frm = s.frm := rfl
@[simp] theorem startBlock_err (s : State) (i : Nat) : (s.startBlock i).err = s.err := rfl
@[simp] theorem startBlock_mbx (s : State) (i : Nat) : (s.startBlock i).mbx = s.mbx := rfl
@[simp] theorem startBlock_aud (s : State) (i : Nat) : (s.startBlock i).aud = s.aud := rfl
@[simp] theorem startBlock_snk (s : State) (i : Nat) : (s.startBlock i).snk = s.snk := rfl
@[simp] theorem startBlock_cpu (s : State) (i : Nat) : (s.startBlock i).cpu = s.cpu := rfl
@[simp] theorem startBlock_log (s : State) (i : Nat) : (s.startBlock i).log = s.log := rfl
@[simp] theorem startPulse_frm (s : State) (w : Nat) : (s.startPulse w).frm = s.frm := rfl
@[simp] theorem startPulse_err (s : State) (w : Nat) : (s.startPulse w).err = s.err := rfl
@[simp] theorem startPulse_mbx (s : State) (w : Nat) : (s.startPulse w).mbx = s.mbx := rfl
@[simp] theorem startPulse_aud (s : State) (w : Nat) : (s.startPulse w).aud = s.aud := rfl
@[simp] theorem startPulse_tap (s : State) (w : Nat) : (s.startPulse w).tap = s.tap := rfl
@[simp] theorem startPulse_snk (s : State) (w : Nat) : (s.startPulse w).snk = s.snk := rfl
@[simp] theorem startPulse_cpu (s : State) (w : Nat) : (s.startPulse w).cpu = s.cpu := rfl
@[simp] theorem startPulse_log (s : State) (w : Nat) : (s.startPulse w).log = s.log := rfl

/-- The mailbox is written by `POST`, `TAKE` and `PRESET` alone. -/
theorem effectOf_mbx (s : State) {i : Instr} (h : i ≠ .post ∧ i ≠ .take ∧ i ≠ .preset) :
    (s.effectOf i).mbx = s.mbx := by
  cases i with
  | post | take | preset => simp at h
  | line en => exact (effectOf_line_rest s en).mbx
  | _ => simp [State.effectOf]

/-- The level is written by `SETVOL` and `PRESET` alone. -/
theorem effectOf_vol (s : State) {i : Instr} (h : (∀ level, i ≠ .setvol level) ∧ i ≠ .preset) :
    (s.effectOf i).aud.vol = s.aud.vol := by
  cases i with
  | setvol | preset => simp at h
  | line en => exact congrArg Audio.vol (effectOf_line_rest s en).aud
  | _ => simp [State.effectOf]

/-- The buffers are written by `RENDER` and `PRESET` alone, and by `RENDER` the active one. -/
theorem effectOf_pcm (s : State) {i : Instr} (h : i ≠ .preset) {b : Fin 2} (hb : b ≠ s.aud.ab) :
    (s.effectOf i).aud.pcm[b] = s.aud.pcm[b] := by
  cases i with
  | preset => simp at h
  | line en => rw [(effectOf_line_rest s en).aud]
  | render => exact Vector.getElem_set_ne s.aud.ab.isLt b.isLt fun h => hb (Fin.ext h.symm)
  | _ => simp [State.effectOf]

/-- The outputs are written by `SUBMIT`, `SINKDONE` and `PRESET` alone. -/
theorem effectOf_snk (s : State) {i : Instr} (h : i ≠ .submit ∧ i ≠ .sinkdone ∧ i ≠ .preset) :
    (s.effectOf i).snk = s.snk := by
  cases i with
  | submit | sinkdone | preset => simp at h
  | line en => exact (effectOf_line_rest s en).snk
  | _ => simp [State.effectOf]

theorem effectOf_line (s : State) {i : Instr} (h : (∀ en, i ≠ .line en) ∧ i ≠ .eof ∧ i ≠ .mreset ∧ i ≠ .preset) :
    (s.effectOf i).frm.line = s.frm.line := by
  cases i with
  | line | eof | mreset | preset => simp at h
  | portw port data => exact (portWrite_portFrame s port data).line
  | _ => simp [State.effectOf]

theorem effectOf_calls (s : State) {i : Instr} (h : (∀ en, i ≠ .line en) ∧ i ≠ .eof ∧ i ≠ .mreset ∧ i ≠ .preset) :
    (s.effectOf i).log.calls = s.log.calls := by
  cases i with
  | line | eof | mreset | preset => simp at h
  | portr port => exact (portRead_portFrame s port).calls
  | lasterr => rfl
  | _ => simp [State.effectOf]

/-! ### What the parts of a composite leave -/

/-- The invariants of R53 on the tape generator. -/
structure Tape.Ok (t : Tape) : Prop where
  tln_le : t.tln ≤ 311
  tphase_le : t.tphase ≤ 223
  tacc_allOrNothing : AllOrNothing t.tacc

/-- What every part of a composite that is no operation leaves, but for a chunk of a pulse. -/
structure State.SetApart (s t : State) : Prop where
  beep : t.lat.beep = s.lat.beep
  frm : t.frm = s.frm
  fault : t.err.fault = s.err.fault
  mbx : t.mbx = s.mbx
  aud : t.aud = s.aud
  sq : t.snk.sq = s.snk.sq
  out : t.snk.out = s.snk.out
  cpu : t.cpu = s.cpu
  calls : t.log.calls = s.log.calls
  tapOk : s.tap.Ok → t.tap.Ok

/-- States that agree on all of this, and of the tape on where it stands and what it has counted. -/
theorem setApart_of_eq {s t : State} (beep : t.lat.beep = s.lat.beep := by rfl) (frm : t.frm = s.frm := by rfl)
    (fault : t.err.fault = s.err.fault := by rfl) (mbx : t.mbx = s.mbx := by rfl) (aud : t.aud = s.aud := by rfl)
    (sq : t.snk.sq = s.snk.sq := by rfl) (out : t.snk.out = s.snk.out := by rfl) (cpu : t.cpu = s.cpu := by rfl)
    (calls : t.log.calls = s.log.calls := by rfl) (tln : t.tap.tln = s.tap.tln := by rfl)
    (tphase : t.tap.tphase = s.tap.tphase := by rfl) (tacc : t.tap.tacc = s.tap.tacc := by rfl) : s.SetApart t := by
  refine ⟨beep, frm, fault, mbx, aud, sq, out, cpu, calls, fun ⟨htln, htphase, htacc⟩ => ?_⟩
  exact ⟨tln ▸ htln, tphase ▸ htphase, tacc ▸ htacc⟩

theorem setApart_trans {s t u : State} (h : s.SetApart t) (k : t.SetApart u) : s.SetApart u where
  beep := k.beep.trans h.beep
  frm := k.frm.trans h.frm
  fault := k.fault.trans h.fault
  mbx := k.mbx.trans h.mbx
  aud := k.aud.trans h.aud
  sq := k.sq.trans h.sq
  out := k.out.trans h.out
  cpu := k.cpu.trans h.cpu
  calls := k.calls.trans h.calls
  tapOk := fun ok => k.tapOk (h.tapOk ok)

theorem refuse_setApart (s : State) (c : Cmd) (w : Why) : s.SetApart (s.refuse c w) :=
  setApart_of_eq

theorem attempt_setApart {s t e : State} (hs : s.SetApart t) (i : Instr) (why : Option Why) (he : t.SetApart e) :
    s.SetApart (t.attempt i why e) := by
  refine setApart_trans hs ?_
  cases why with
  | none => exact he
  | some w => exact refuse_setApart t _ w

/-- A load writes the image, the blocks and the reason, nothing else of the tape or the errors. -/
theorem loadTape_tap_err (s : State) (img : List Byte) :
    (s.loadTape img).2.tap = { s.tap with
      timg := (s.loadTape img).2.tap.timg, tblk := (s.loadTape img).2.tap.tblk } ∧
    (s.loadTape img).2.err = { s.err with terr := (s.loadTape img).2.err.terr } := by
  unfold State.loadTape
  cases s.drawAlloc.1 with
  | false => simp [State.loadFailed]
  | true => cases parseTape img <;> simp [State.loadFailed]

theorem returnLoad_setApart (s : State) (img : List Byte) : s.SetApart (s.returnLoad img) := by
  obtain ⟨htap, herr⟩ := loadTape_tap_err s img
  constructor
  case fault => rw [State.returnLoad_err, herr]
  case tapOk =>
    rw [State.returnLoad_tap, htap]
    exact fun ⟨hl, hp, ha⟩ => ⟨hl, hp, ha⟩
  all_goals simp

theorem playLoaded_setApart (s : State) : s.SetApart s.playLoaded := by
  have hok : s.tap.Ok → Tape.Ok { s.tap with tdone := 0, tfr := 0, tln := 0, tphase := 0 } :=
    fun ⟨_, _, ha⟩ => ⟨Nat.zero_le _, Nat.zero_le _, ha⟩
  have hset : s.SetApart { s with tap.tdone := 0, tap.tfr := 0, tap.tln := 0, tap.tphase := 0 } :=
    ⟨rfl, rfl, rfl, rfl, rfl, rfl, rfl, rfl, rfl, hok⟩
  unfold State.playLoaded
  dsimp only
  split
  · exact setApart_trans hset setApart_of_eq
  · exact setApart_trans hset setApart_of_eq

theorem doTask_setApart (s : State) {k : Task} (hk : ∀ n, k ≠ .chunk n) : s.SetApart (s.doTask k) := by
  cases k with
  | chunk n => exact absurd rfl (hk n)
  | op i | keyPress k | keyRelease k => exact setApart_of_eq
  | blockPulse k =>
    show s.SetApart (s.doBlockPulse k)
    unfold State.doBlockPulse
    split
    · exact attempt_setApart setApart_of_eq _ _
        setApart_of_eq
    · exact setApart_of_eq
  | playLoad img =>
    refine attempt_setApart setApart_of_eq _ _ ?_
    split
    · exact setApart_trans (returnLoad_setApart s img) (playLoaded_setApart _)
    · exact setApart_trans (returnLoad_setApart s img) setApart_of_eq
  | playBlock i =>
    show s.SetApart (s.doPlayBlock i)
    unfold State.doPlayBlock
    split
    · exact attempt_setApart setApart_of_eq _ _
        setApart_of_eq
    · exact setApart_of_eq
  | playPause i =>
    exact attempt_setApart setApart_of_eq _ _
      setApart_of_eq

/-- What a chunk of a pulse leaves, whatever its run returns; and the mailbox and the calls, which the end of the 312th
tape line alone writes beside the run. -/
structure State.ChunkFrame (s t : State) : Prop where
  frm : t.frm = { s.frm with seen := t.frm.seen }
  aud : t.aud = s.aud
  sq : t.snk.sq = s.snk.sq
  out : t.snk.out = s.snk.out
  mbx : t.mbx = s.mbx ∨
    s.tap.tln = 311 ∧ t.mbx = ⟨s.tap.tacc.setIfInBounds 311 (if s.lat.ear then 224 else 0), true, .tape⟩
  run : s.cpu.run = none → t.cpu.run = none
  fault : t.err.fault = false → s.err.fault = false
  calls : ∃ before, (∀ v, .interrupt v ∉ before) ∧ (t.log.calls = s.log.calls ++ before ∨
    s.tap.tln = 311 ∧ t.log.calls = s.log.calls ++ before ++ [.interrupt Config.intVector])
  tapOk : s.tap.Ok → t.tap.Ok

/-- Whatever a chunk comes to, it stays within `ChunkFrame`. -/
theorem doChunk_chunkFrame (s : State) (n : Nat) : s.ChunkFrame (s.doChunk n) := by
  obtain ⟨-, h⟩ | ⟨hn, hcases⟩ := doChunk_cases s n
  · rw [h]
    exact ⟨rfl, rfl, rfl, rfl, .inl rfl, id, id, ⟨[], by simp, .inl (List.append_nil _).symm⟩, id⟩
  have hret := chunkReturned_callFrame s n
  obtain ⟨hfrm, -, -⟩ := doChunk_frame (s := s) hn
  have hfrm' : (s.doChunk n).frm = { s.frm with seen := (s.doChunk n).frm.seen } := hfrm ▸ chunkReturned_frm s n
  obtain ⟨f, h⟩ | ⟨hshort, h⟩ | ⟨-, -, h⟩ := hcases
  · rw [h] at hfrm' ⊢
    exact ⟨hfrm', hret.aud, congrArg _ hret.snk, congrArg _ hret.snk, .inl hret.mbx, fun _ => hret.run, by simp,
      ⟨_, by simp, .inl hret.calls⟩, fun ok => hret.tap.symm ▸ ok⟩
  · have htap : (s.chunkReturned n).tap = s.tap := hret.tap
    rw [h] at hfrm' ⊢
    refine ⟨hfrm', hret.aud, congrArg _ hret.snk, congrArg _ hret.snk, .inl hret.mbx, fun _ => hret.run,
      fun hf => congrArg Errors.fault hret.err ▸ hf, ⟨_, by simp, .inl hret.calls⟩, ?_⟩
    rintro ⟨htln, -, htacc⟩
    rw [← htap] at htln hshort htacc
    exact ⟨htln, by dsimp only; omega, htacc⟩
  · have hend := atLineEnd_callFrame s n
    have hcalls : (s.atLineEnd n).log.calls = s.log.calls ++ [.run (min n (224 - s.tap.tphase))] := hend.calls
    have htap := atLineEnd_tap s n
    have htln' : (s.atLineEnd n).tap.tln = s.tap.tln := by rw [htap]
    have hear : (s.atLineEnd n).lat.ear = s.lat.ear := hend.ear
    rw [h] at hfrm' ⊢
    refine ⟨hfrm', (State.emitLine_aud _).trans hend.aud, (emitLine_sq _).trans (congrArg _ hend.snk),
      (emitLine_out _).trans (congrArg _ hend.snk), ?mbx, fun _ => (emitLine_run _).trans hend.run, ?fault,
      ⟨[.run (min n (224 - s.tap.tphase))], by simp, ?calls⟩, ?tapOk⟩
    case mbx =>
      by_cases htln : (s.atLineEnd n).tap.tln = 311
      · have hmbx := (emitLine_last htln).mbx
        rw [htap, hear] at hmbx
        exact .inr ⟨htln'.symm.trans htln, hmbx⟩
      · exact .inl ((emitLine_of_ne htln).1.trans hend.mbx)
    case fault =>
      rw [State.emitLine_err]
      exact fun hf => congrArg Errors.fault hend.err ▸ hf
    case calls =>
      obtain hc | ⟨htln, hc⟩ := emitLine_calls (s.atLineEnd n)
      · exact .inl (hc.trans hcalls)
      · exact .inr ⟨htln'.symm.trans htln, by rw [hc, hcalls]⟩
    case tapOk =>
      rintro ⟨hle, -, htacc⟩
      rw [emitLine_tap, htap]
      refine ⟨?_, Nat.zero_le _, allOrNothing_set htacc _ (by split <;> simp)⟩
      dsimp only
      split <;> omega

/-! ### What a turn comes to -/

/-- The next state after a turn: an operation's effect; a chunk of a pulse; the return of a run; or nothing beyond a part of
a composite. -/
theorem takeTurn_next {k : Turn} {u t : State} (h : takeTurn (k, u) = .next t) :
    (∃ i, k = .op i ∧ u.refusalOf i = none ∧ t = u.effectOf i) ∨ (∃ n, k = .task (.chunk n) ∧ t = u.doChunk n) ∨
      t = u.finishRun ∨ u.SetApart t := by
  cases k with
  | op i =>
    obtain ⟨w, rfl⟩ | ⟨hn, rfl⟩ := exec_next h
    · exact .inr (.inr (.inr (refuse_setApart u _ w)))
    · exact .inl ⟨i, rfl, hn, rfl⟩
  | idle =>
    cases h
    exact .inr (.inr (.inr setApart_of_eq))
  | reject c r =>
    cases h
    exact .inr (.inr (.inr (refuse_setApart u c _)))
  | task k =>
    cases h
    by_cases hk : ∃ n, k = .chunk n
    · obtain ⟨n, rfl⟩ := hk
      exact .inr (.inl ⟨n, rfl, rfl⟩)
    · exact .inr (.inr (.inr (doTask_setApart u fun n hn => hk ⟨n, hn⟩)))
  | runReturns =>
    cases h
    exact .inr (.inr (.inl rfl))

theorem finishRun_of_none {s : State} (h : s.cpu.run = none) : s.finishRun = s := by
  rw [State.finishRun, h]

/-- `takeTurn_next` with no run in progress. -/
theorem takeTurn_next_outside {k : Turn} {u t : State} (hr : u.cpu.run = none) (h : takeTurn (k, u) = .next t) :
    (∃ i, k = .op i ∧ u.refusalOf i = none ∧ t = u.effectOf i) ∨ (∃ n, k = .task (.chunk n) ∧ t = u.doChunk n) ∨
      u.SetApart t := by
  obtain hop | hchunk | rfl | hset := takeTurn_next h
  · exact .inl hop
  · exact .inr (.inl hchunk)
  · rw [finishRun_of_none hr]
    exact .inr (.inr setApart_of_eq)
  · exact .inr (.inr hset)

/-- `takeTurn_next` of the turn drawn. -/
theorem step_next {s t : State} (h : step s = .next t) :
    (∃ i, s.fetch.1 = .op i ∧ s.fetch.2.refusalOf i = none ∧ t = s.fetch.2.effectOf i) ∨
      (∃ n, s.fetch.1 = .task (.chunk n) ∧ t = s.fetch.2.doChunk n) ∨ t = s.fetch.2.finishRun ∨ s.fetch.2.SetApart t :=
  takeTurn_next h

theorem step_next_outside {s t : State} (hr : s.cpu.run = none) (h : step s = .next t) :
    (∃ i, s.fetch.1 = .op i ∧ s.fetch.2.refusalOf i = none ∧ t = s.fetch.2.effectOf i) ∨
      (∃ n, s.fetch.1 = .task (.chunk n) ∧ t = s.fetch.2.doChunk n) ∨ s.fetch.2.SetApart t := by
  obtain ⟨-, -, -, -, -, -, -, -, -, hrun⟩ := fetch_frame s
  exact takeTurn_next_outside (hrun hr) h

theorem finishRun_aud_out (s : State) : s.finishRun.aud = s.aud ∧ s.finishRun.snk.out = s.snk.out := by
  unfold State.finishRun
  split
  · exact ⟨rfl, rfl⟩
  · split
    · exact ⟨rfl, rfl⟩
    · split
      · exact ⟨rfl, rfl⟩
      · refine ⟨State.chunkStore_aud _ _ _, ?_⟩
        rw [chunkStore_eq]
        split
        · exact emitLine_out _
        · rfl

/-- Settles O56: by the cases of a step outside a run (`step_next_outside`); of the operations only four write `LINE`.
-/
theorem scanlinesFollowInOrder : Obligations.ScanlinesFollowInOrder := by
  unfold Obligations.ScanlinesFollowInOrder
  intro s t hr h
  obtain ⟨-, hfrm, -⟩ := fetch_frame s
  rw [← hfrm]
  obtain ⟨i, hk, -, rfl⟩ | ⟨n, -, rfl⟩ | hset := step_next_outside hr h
  · rw [hk]
    by_cases hi : (∀ en, i ≠ .line en) ∧ i ≠ .eof ∧ i ≠ .mreset ∧ i ≠ .preset
    · exact .inl (effectOf_line _ hi)
    · cases i with
      | line en =>
        obtain he | ⟨f, he⟩ := effectOf_line_cases s.fetch.2 en
        · exact .inr (.inl ⟨by rw [he, lineDone_frm], en, rfl⟩)
        · exact .inl (by rw [he, State.raise_frm, lineReturned_frm])
      | eof => exact .inr (.inr ⟨rfl, .inl rfl⟩)
      | mreset => exact .inr (.inr ⟨rfl, .inr (.inl rfl)⟩)
      | preset => exact .inr (.inr ⟨rfl, .inr (.inr rfl)⟩)
      | _ => simp at hi
  · exact .inl (by rw [(doChunk_chunkFrame _ n).frm])
  · exact .inl (by rw [hset.frm])

/-- Settles O57: by the cases of a step; `RENDER` alone writes a buffer, the active one. -/
theorem noStepWritesTheBufferInFlight : Obligations.NoStepWritesTheBufferInFlight := by
  unfold Obligations.NoStepWritesTheBufferInFlight
  intro s t h hpreset
  obtain ⟨-, -, -, -, haud, -⟩ := fetch_frame s
  suffices hother : ∀ b : Fin 2, b ≠ s.aud.ab → t.aud.pcm[b] = s.aud.pcm[b] from hother _ (other_buffer_ne _)
  rw [← haud]
  intro b hb
  obtain ⟨i, hk, -, rfl⟩ | ⟨n, -, rfl⟩ | rfl | hset := step_next h
  · exact effectOf_pcm _ (fun hi => hpreset (hi ▸ hk)) hb
  · rw [(doChunk_chunkFrame _ n).aud]
  · rw [(finishRun_aud_out _).1]
  · rw [hset.aud]

/-- Settles O58: by the cases of a step outside a run; a chunk posts only at the 312th line (`doChunk_chunkFrame`). -/
theorem onlyPostsAndTakesTouchTheMailbox : Obligations.OnlyPostsAndTakesTouchTheMailbox := by
  unfold Obligations.OnlyPostsAndTakesTouchTheMailbox
  intro s t hr h
  obtain ⟨-, -, -, hmbx, -, htap, -⟩ := fetch_frame s
  rw [← hmbx, ← htap]
  obtain ⟨i, hk, -, rfl⟩ | ⟨n, hk, rfl⟩ | hset := step_next_outside hr h
  · rw [hk]
    by_cases hi : i ≠ .post ∧ i ≠ .take ∧ i ≠ .preset
    · exact .inl (effectOf_mbx _ hi)
    · cases i <;> simp at hi ⊢
  · obtain hsame | ⟨htln, hmb⟩ := (doChunk_chunkFrame s.fetch.2 n).mbx
    · exact .inl hsame
    · exact .inr (.inr (.inr (.inr ⟨⟨n, hk⟩, htln, by rw [hmb], by rw [hmb]⟩)))
  · exact .inl hset.mbx

/-- Settles O59: by the cases of a step outside a run, each with the calls it appends. -/
theorem interruptRequestsComeAtFrameEndsAlone : Obligations.InterruptRequestsComeAtFrameEndsAlone := by
  unfold Obligations.InterruptRequestsComeAtFrameEndsAlone
  intro s t hr h
  obtain ⟨-, -, -, -, -, htap, -, hlog, -⟩ := fetch_frame s
  rw [← hlog, ← htap]
  have quiet : ∀ before, (∀ v, .interrupt v ∉ before) → t.log.calls = s.fetch.2.log.calls ++ before →
      ∀ v, .interrupt v ∉ t.log.calls.drop s.fetch.2.log.calls.length := by
    intro before hb hc
    rw [hc, List.drop_left]
    exact hb
  obtain ⟨i, hk, -, rfl⟩ | ⟨n, hk, rfl⟩ | hset := step_next_outside hr h
  · rw [hk]
    by_cases hi : (∀ en, i ≠ .line en) ∧ i ≠ .eof ∧ i ≠ .mreset ∧ i ≠ .preset
    · exact .inl (quiet [] (by simp) ((effectOf_calls _ hi).trans (List.append_nil _).symm))
    · cases i with
      | line en => exact .inl (quiet [.run 224] (by simp) (effectOf_line_rest _ en).calls)
      | mreset => exact .inl (quiet [.reset] (by simp) (congrArg Records.calls (machineReset_log _)))
      | preset => exact .inl (quiet [.reset] (by simp) (congrArg Records.calls (powerOn_log _)))
      | eof =>
        have hcalls := congrArg Records.calls (frameEnd_log s.fetch.2)
        dsimp only at hcalls
        split at hcalls
        · exact .inr ⟨.inl rfl, [], by simp, by rw [List.append_nil]; exact hcalls⟩
        · exact .inl (quiet [] (by simp) hcalls)
      | _ => simp at hi
  · obtain ⟨before, hb, hc | ⟨htln, hc⟩⟩ := (doChunk_chunkFrame s.fetch.2 n).calls
    · exact .inl (quiet before hb hc)
    · exact .inr ⟨.inr ⟨n, hk, htln⟩, before, hb, hc⟩
  · exact .inl (quiet [] (by simp) (hset.calls.trans (List.append_nil _).symm))

/-- Settles O60: by the cases of a step, for the level and for the output. -/
theorem volumeAndOutputKeepTheirWriters : Obligations.VolumeAndOutputKeepTheirWriters := by
  unfold Obligations.VolumeAndOutputKeepTheirWriters
  intro s t h hpreset
  obtain ⟨-, -, -, -, haud, -, hsnk, -⟩ := fetch_frame s
  rw [← haud, ← hsnk]
  obtain ⟨i, hk, -, rfl⟩ | ⟨n, -, rfl⟩ | rfl | hset := step_next h
  · have hi : i ≠ .preset := fun hi => hpreset (hi ▸ hk)
    rw [hk]
    constructor
    · by_cases hvol : ∀ level, i ≠ .setvol level
      · exact .inl (effectOf_vol _ ⟨hvol, hi⟩)
      · exact .inr (by simpa using hvol)
    · by_cases hout : i ≠ .submit ∧ i ≠ .sinkdone ∧ i ≠ .preset
      · exact ⟨[], by rw [effectOf_snk _ hout, List.append_nil]⟩
      · cases i with
        | submit => exact ⟨_, rfl⟩
        | sinkdone => exact ⟨[], (List.append_nil _).symm⟩
        | _ => simp at hout hi
  · have hf := doChunk_chunkFrame s.fetch.2 n
    exact ⟨.inl (by rw [hf.aud]), [], by rw [hf.out, List.append_nil]⟩
  · obtain ⟨ha, ho⟩ := finishRun_aud_out s.fetch.2
    exact ⟨.inl (by rw [ha]), [], by rw [ho, List.append_nil]⟩
  · exact ⟨.inl (by rw [hset.aud]), [], by rw [hset.out, List.append_nil]⟩

end Sys2Proof.Machine

/-!
PROOFS. The audio pipeline: the renderer's range and symmetry (R185 to R193, R201), `RENDER`, `WAIT`, and a whole period
(R184, R195, R198).
-/
namespace Sys2Proof.Machine

/-! ### The range of the samples -/

theorem steadySample_natAbs_le {peak fade level i : Nat} {F : LineFrame} (h1 : 1 ≤ fade) (h2 : fade ≤ 160)
    (hlevel : level ≤ 10) (hi : i < 320) (hF : ∀ k, k < 312 → F.entry k ≤ 224) :
    (steadySample peak fade level F i).natAbs ≤ peak := by
  rw [steadySample, Int.natAbs_tdiv]
  refine Nat.div_le_of_le_mul ?_
  calc ((peak : Int) * level * centred F i * fadeGain fade i).natAbs
    _ = peak * level * (centred F i).natAbs * fadeGain fade i := by simp [Int.natAbs_mul]
    _ ≤ peak * 10 * 4480 * fade := by gcongr; exacts [centred_natAbs_le hi hF, fadeGain_le i h1 h2]
    _ = (10 * 4480 * (fade : Int)).natAbs * peak := by rw [Int.natAbs_mul, Int.natAbs_natCast]; ring_nf

theorem tapeUnsmoothed_natAbs_le {peak lt i : Nat} {F : LineFrame} (hlt : lt ≤ 10) (hi : i < 320)
    (hF : ∀ k, k < 312 → F.entry k ≤ 224) : (tapeUnsmoothed peak lt F i).natAbs ≤ peak := by
  rw [tapeUnsmoothed, Int.natAbs_tdiv]
  refine Nat.div_le_of_le_mul ?_
  calc ((peak : Int) * lt * centred F i).natAbs
    _ = peak * lt * (centred F i).natAbs := by simp [Int.natAbs_mul]
    _ ≤ peak * 10 * 4480 := by gcongr; exact centred_natAbs_le hi hF
    _ = (10 * 4480 : Int).natAbs * peak := by rw [show (10 * 4480 : Int).natAbs = 44800 from rfl]; ring

theorem tapeSample_natAbs_le {peak lt i : Nat} {F : LineFrame} {q : Int} (hlt : lt ≤ 10) (hi : i < 320)
    (hq : q.natAbs ≤ peak) (hF : ∀ k, k < 312 → F.entry k ≤ 224) : (tapeSample peak lt F q i).natAbs ≤ peak := by
  have hthis := tapeUnsmoothed_natAbs_le (peak := peak) hlt hi hF
  have hprev : (tapePrevious peak lt F q i).natAbs ≤ peak := by
    unfold tapePrevious
    split
    · exact hq
    · exact tapeUnsmoothed_natAbs_le hlt (by omega) hF
  rw [tapeSample, Int.natAbs_tdiv]
  refine Nat.div_le_of_le_mul (show _ ≤ 2 * peak from ?_)
  omega

/-- Settles O43: bounds the numerator of each formula by the divisor times the peak. -/
theorem samplesAreWithinThePeak : Obligations.SamplesAreWithinThePeak := by
  unfold Obligations.SamplesAreWithinThePeak
  exact ⟨fun peak fade level i F h1 h2 hlevel hi hF => steadySample_natAbs_le h1 h2 hlevel hi hF,
    fun peak lt i F q hlt hi hq hF => ⟨tapeUnsmoothed_natAbs_le hlt hi hF, tapeSample_natAbs_le hlt hi hq hF⟩⟩

/-! ### Symmetry and silence -/

theorem centred_complement {F G : LineFrame} {i : Nat} (hi : i < 320) (hF : ∀ k, k < 312 → F.entry k ≤ 224)
    (hG : ∀ k, k < 312 → G.entry k = 224 - F.entry k) : centred G i = - centred F i := by
  have hb : lineBelow i < 312 := Nat.lt_succ_of_le (lineBelow_le hi)
  have ha : lineAbove i < 312 := Nat.lt_succ_of_le (lineAbove_le i)
  rw [centred, centred, hG _ hb, hG _ ha, Nat.cast_sub (hF _ hb), Nat.cast_sub (hF _ ha)]
  push_cast
  ring

theorem centred_midScale {i : Nat} (hi : i < 320) : centred (Vector.replicate 312 112) i = 0 := by
  rw [centred, entry_replicate _ _ (Nat.lt_succ_of_le (lineBelow_le hi)),
    entry_replicate _ _ (Nat.lt_succ_of_le (lineAbove_le i))]
  simp

theorem tapeUnsmoothed_midScale {peak level i : Nat} (hi : i < 320) :
    tapeUnsmoothed peak level (Vector.replicate 312 112) i = 0 := by
  simp [tapeUnsmoothed, centred_midScale hi]

theorem fadeGain_edges {fade : Nat} (h1 : 1 ≤ fade) (h2 : fade ≤ 160) : fadeGain fade 0 = 0 ∧ fadeGain fade 319 = 0 := by
  unfold fadeGain
  constructor
  · rw [if_pos (by omega)]
  · rw [if_neg (by omega), if_pos (by omega)]

/-- Settles O44: the centred line value is odd under `e ↦ 224 - e` and 0 at mid-scale, and the fade's gain is 0 at both
edges. -/
theorem rendererIsOddAndSilentAtMidScaleAndEdges : Obligations.RendererIsOddAndSilentAtMidScaleAndEdges := by
  unfold Obligations.RendererIsOddAndSilentAtMidScaleAndEdges
  refine ⟨fun peak fade level i F G hi hF hG => ?_, fun peak fade level i hi => ⟨?_, tapeUnsmoothed_midScale hi⟩,
    fun peak level i q hi => ?_, fun peak fade level F h1 h2 => ?_⟩
  · rw [steadySample, centred_complement hi hF hG, mul_neg, neg_mul, Int.neg_tdiv]
    rfl
  · simp [steadySample, centred_midScale hi]
  · rw [tapeSample, tapeUnsmoothed_midScale hi, tapePrevious]
    split
    · rw [zero_add]
    · rw [tapeUnsmoothed_midScale (by omega)]
      rfl
  · obtain ⟨h0, h319⟩ := fadeGain_edges h1 h2
    simp [steadySample, h0, h319]

/-! ### RENDER and WAIT -/

@[simp] theorem silence_getElem (i : Nat) (h : i < 320) : silence[i] = 0 := tabulate_getElem ..

theorem renderedFrame_of_none {s : State} (h : s.aud.curValid = false) :
    s.renderedFrame = silence ∧ s.renderedCarry = 0 := by
  rw [State.renderedFrame, State.renderedCarry, h]
  exact ⟨rfl, rfl⟩

theorem renderedFrame_of_beeper {s : State} (h : s.aud.curValid = true) (hsrc : s.aud.curSrc = .beeper) :
    s.renderedFrame = renderSteady Config.peak Config.fade s.aud.vol s.aud.cur ∧ s.renderedCarry = 0 := by
  rw [State.renderedFrame, State.renderedCarry, h, hsrc]
  exact ⟨rfl, rfl⟩

theorem renderedFrame_of_tape {s : State} (h : s.aud.curValid = true) (hsrc : s.aud.curSrc = .tape) :
    s.renderedFrame = renderTape Config.peak (s.aud.vol - 2) s.aud.cur s.aud.sprev ∧
      s.renderedCarry = tapeUnsmoothed Config.peak (s.aud.vol - 2) s.aud.cur 319 := by
  rw [State.renderedFrame, State.renderedCarry, h, hsrc]
  exact ⟨rfl, rfl⟩

/-- Settles O42: `exec_render`, and the rendered frame for each kind of frame taken. -/
theorem renderFillsTheActiveBuffer : Obligations.RenderFillsTheActiveBuffer := by
  unfold Obligations.RenderFillsTheActiveBuffer
  intro s h hp
  refine ⟨_, _, exec_render h hp, fun hv => ?_, fun hv hsrc => ?_, fun hv hsrc => ?_⟩
  · obtain ⟨hf, hq⟩ := renderedFrame_of_none hv
    rw [hf]
    exact ⟨hq, silence_getElem⟩
  · obtain ⟨hf, hq⟩ := renderedFrame_of_beeper hv hsrc
    rw [hf]
    exact ⟨hq, fun i hi => tabulate_getElem ..⟩
  · obtain ⟨hf, hq⟩ := renderedFrame_of_tape hv hsrc
    rw [hf]
    exact ⟨hq, fun i hi => tabulate_getElem ..⟩

theorem exec_wait {s : State} (h : s.MayIssue .a) (hp : s.aud.aph = .wait)
    (hq : s.snk.sq.length ≤ 1 ∨ s.othersPending = true) : exec .wait s = .next s.waitOn := by
  refine exec_of_accepted (audioWhy_eq_none h hp) ?_
  rintro ⟨-, -, hlen, ho⟩
  obtain hq | hq := hq
  · omega
  · rw [hq] at ho; cases ho

theorem exec_wait_passes {s : State} (h : s.MayIssue .a) (hp : s.aud.aph = .wait) (hq : s.snk.sq.length ≤ 1) :
    exec .wait s = .next { s with aud.aph := .flip } := by
  rw [exec_wait h hp (.inl hq), State.waitOn, if_pos hq]

/-- Settles O46: it passes, is held while others are pending, or is the stuck case of `exec_cases`. -/
theorem waitPassesHoldsOrIsStuck : Obligations.WaitPassesHoldsOrIsStuck := by
  unfold Obligations.WaitPassesHoldsOrIsStuck
  intro s h hp
  refine ⟨exec_wait_passes h hp, fun hq ho => ?_, fun hq ho => ?_⟩
  · rw [exec_wait h hp (.inr ho), State.waitOn, if_neg (by omega)]
    rfl
  · have hn : s.refusalOf .wait = none := audioWhy_eq_none h hp
    obtain ⟨w, hw, -⟩ | ⟨-, hs, -⟩ | ⟨-, he⟩ := exec_cases .wait s
    · rw [hn] at hw; cases hw
    · exact absurd ⟨rfl, hn, hq, ho⟩ hs
    · exact he

/-! ### A whole period -/

/-- The critical section of `TAKE` as one update (R69, R183). -/
theorem takeFrame_eq (s : State) :
    s.takeFrame = { s with
      aud.cur := if s.mbx.ready then s.mbx.mb else s.aud.cur
      aud.curSrc := if s.mbx.ready then s.mbx.src else s.aud.curSrc
      aud.curValid := s.mbx.ready
      mbx.ready := false } := by
  unfold State.takeFrame
  cases h : s.mbx.ready with
  | true => rfl
  | false =>
    have hm : (⟨s.mbx.mb, false, s.mbx.src⟩ : Mailbox) = s.mbx := by rw [← h]
    simp only [Bool.false_eq_true, if_false, hm]

/-- The audio pipeline after a `TAKE` from mailbox `m` (R183). -/
def Audio.taken (a : Audio) (m : Mailbox) : Audio :=
  { a with
    cur := if m.ready then m.mb else a.cur, curSrc := if m.ready then m.src else a.curSrc
    curValid := m.ready, aph := .render }

/-- The audio context's view in the middle of a period: what its operations write, and the parts still to come. -/
def State.inPeriod (s : State) (m : Mailbox) (a : Audio) (o : Outputs) (ks : List Task) : State :=
  { s with mbx := m, aud := a, snk := o, env.issuer := .a, env.aWork := ks }

section period
variable {s : State} {m : Mailbox} {a : Audio} {o : Outputs} {ks : List Task}
variable (hrun : s.cpu.run = none) (hf : s.err.fault = false)

include hrun in
theorem stepAs_inPeriod {i : Instr} : stepAs .a (s.inPeriod m a o (.op i :: ks)) = exec i (s.inPeriod m a o ks) :=
  stepAs_a_op (s := s.inPeriod m a o (.op i :: ks)) hrun rfl

include hrun hf

theorem stepAs_take (hp : a.aph = .take) :
    stepAs .a (s.inPeriod m a o (.op .take :: ks)) = .next (s.inPeriod { m with ready := false } (a.taken m) o ks) := by
  rw [stepAs_inPeriod hrun, exec_take (s := s.inPeriod m a o ks) ⟨rfl, hf⟩ hp, takeFrame_eq]
  rfl

theorem stepAs_render (hp : a.aph = .render) :
    stepAs .a (s.inPeriod m a o (.op .render :: ks)) = .next (s.inPeriod m
      { a with
        pcm := a.pcm.set a.ab (s.inPeriod m a o ks).renderedFrame, sprev := (s.inPeriod m a o ks).renderedCarry
        aph := .submit } o ks) :=
  (stepAs_inPeriod hrun).trans (exec_render (s := s.inPeriod m a o ks) ⟨rfl, hf⟩ hp)

theorem stepAs_submit (hp : a.aph = .submit) :
    stepAs .a (s.inPeriod m a o (.op .submit :: ks)) = .next (s.inPeriod m { a with aph := .wait }
      { o with sq := o.sq ++ [a.pcm[a.ab]], out := o.out ++ [a.pcm[a.ab]] } ks) :=
  (stepAs_inPeriod hrun).trans (exec_submit (s := s.inPeriod m a o ks) ⟨rfl, hf⟩ hp)

theorem stepAs_wait (hp : a.aph = .wait) (hq : o.sq.length ≤ 1) :
    stepAs .a (s.inPeriod m a o (.op .wait :: ks)) = .next (s.inPeriod m { a with aph := .flip } o ks) :=
  (stepAs_inPeriod hrun).trans (exec_wait_passes (s := s.inPeriod m a o ks) ⟨rfl, hf⟩ hp hq)

theorem stepAs_flip (hp : a.aph = .flip) :
    stepAs .a (s.inPeriod m a o (.op .flip :: ks)) =
      .next (s.inPeriod m { a with ab := 1 - a.ab, aph := .take } o ks) :=
  (stepAs_inPeriod hrun).trans (exec_flip (s := s.inPeriod m a o ks) ⟨rfl, hf⟩ hp)

end period

/-- Settles O49: the six turns of `A` one after another, each an update of the period's view of the state. -/
theorem audioPeriodRunsToItsEnd : Obligations.AudioPeriodRunsToItsEnd := by
  unfold Obligations.AudioPeriodRunsToItsEnd
  intro s cs hrun hf hp hq hw hcmd
  let s1 : State := { s with env.cmds.a := cs }
  let u : State := s1.inPeriod { s.mbx with ready := false } (s.aud.taken s.mbx) s.snk [.op .submit, .op .wait, .op .flip]
  have hstart : stepAs .a s = .next (s1.inPeriod s.mbx s.aud s.snk periodParts) := by
    refine (stepAs_a_cmd hrun hw hcmd).trans ((exec_aperiod (s := { s1 with env.issuer := .a }) ⟨rfl, hf⟩ hp).trans ?_)
    show Host.Outcome.next { s1 with env.issuer := .a, env.aWork := periodParts ++ s.env.aWork } = _
    rw [hw]
    rfl
  have hbuffer : (s.aud.pcm.set s.aud.ab u.renderedFrame)[s.aud.ab] = u.renderedFrame := Vector.getElem_set_self ..
  have hall := calc runAs [.a, .a, .a, .a, .a, .a] s
    _ = runAs [.a, .a, .a, .a, .a] _ := runAs_cons _ hstart
    _ = runAs [.a, .a, .a, .a] _ := runAs_cons _ (stepAs_take hrun hf hp)
    _ = runAs [.a, .a, .a] _ := runAs_cons _ (stepAs_render hrun hf rfl)
    _ = runAs [.a, .a] _ := runAs_cons _ (stepAs_submit hrun hf rfl)
    _ = runAs [.a] _ := runAs_cons _ (stepAs_wait hrun hf rfl (by simp [hq]))
    _ = runAs [] _ := runAs_cons _ (stepAs_flip hrun hf rfl)
  have hcur : s.mbx.ready = true → u.aud.curSrc = s.mbx.src ∧ u.aud.cur = s.mbx.mb := fun h => ⟨if_pos h, if_pos h⟩
  refine ⟨_, u.renderedFrame, hall, fun h => (renderedFrame_of_none h).1, fun h hsrc => ?beeper, fun h hsrc => ?tape,
    congrArg (s.snk.out ++ [·]) hbuffer, ?sq, rfl, other_buffer_ne _, rfl, rfl, rfl, rfl, rfl, rfl, rfl, rfl, rfl⟩
  case beeper =>
    obtain ⟨hs, hc⟩ := hcur h
    rw [(renderedFrame_of_beeper h (hs.trans hsrc)).1, hc]
    rfl
  case tape =>
    obtain ⟨hs, hc⟩ := hcur h
    rw [(renderedFrame_of_tape h (hs.trans hsrc)).1, hc]
    rfl
  case sq =>
    show s.snk.sq ++ [(s.aud.pcm.set s.aud.ab u.renderedFrame)[s.aud.ab]] = [u.renderedFrame]
    rw [hq, hbuffer]
    rfl

end Sys2Proof.Machine

/-!
PROOFS. The invariants of R53, group by group: every operation, every part of a composite and so every step keeps them.
-/
namespace Sys2Proof.Machine

/-! ### The invariants, group by group -/

/-- The invariants of R53 on the frame accumulator, given `FAULT`. -/
structure FrameAcc.Ok (f : FrameAcc) (fault : Bool) : Prop where
  line_le : f.line ≤ 312
  acc_allOrNothing : AllOrNothing f.acc
  fcyc_eq : fault = false → f.fcyc = 224 * f.line

/-- The invariants of R53 on the audio pipeline, given how many frames the sink holds. -/
structure Audio.Ok (a : Audio) (held : Nat) : Prop where
  cur_allOrNothing : AllOrNothing a.cur
  vol_le : a.vol ≤ 10
  pcm_within : ∀ b : Fin 2, Within Config.peak a.pcm[b]
  held_le : held ≤ 2
  held_le_one : a.aph ≠ .wait → held ≤ 1
  carry_le : a.sprev.natAbs ≤ Config.peak

theorem inv_iff {s : State} :
    s.Inv ↔ s.frm.Ok s.err.fault ∧ AllOrNothing s.mbx.mb ∧ s.aud.Ok s.snk.sq.length ∧ s.tap.Ok ∧ s.cpu.run = none := by
  constructor
  · intro ⟨hline, htln, htphase, hacc, hmb, hcur, htacc, hvol, hpcm, hsq, hsq1, hfcyc, hcarry, hrun⟩
    exact ⟨⟨hline, hacc, hfcyc⟩, hmb, ⟨hcur, hvol, hpcm, hsq, hsq1, hcarry⟩, ⟨htln, htphase, htacc⟩, hrun⟩
  · intro ⟨⟨hline, hacc, hfcyc⟩, hmb, ⟨hcur, hvol, hpcm, hsq, hsq1, hcarry⟩, ⟨htln, htphase, htacc⟩, hrun⟩
    exact ⟨hline, htln, htphase, hacc, hmb, hcur, htacc, hvol, hpcm, hsq, hsq1, hfcyc, hcarry, hrun⟩

theorem within_silent (m : Nat) : Within m (Vector.replicate 320 0) := by
  intro i h
  simp

theorem frameAcc_preset_ok (d : CpuRegs) (fault : Bool) : (FrameAcc.preset d).Ok fault :=
  ⟨Nat.zero_le _, allOrNothing_zero, fun _ => rfl⟩

theorem audio_preset_ok : Audio.preset.Ok 0 where
  cur_allOrNothing := allOrNothing_zero
  vol_le := volReset_le
  pcm_within := by
    intro b
    rw [show Audio.preset.pcm[b] = Vector.replicate 320 0 from Vector.getElem_replicate ..]
    exact within_silent _
  held_le := Nat.zero_le _
  held_le_one := fun _ => Nat.zero_le _
  carry_le := Nat.zero_le _

theorem tape_preset_ok : Tape.preset.Ok := ⟨Nat.zero_le _, Nat.zero_le _, allOrNothing_zero⟩

/-- Settles O55: every group of the invariant holds of the reset values. -/
theorem resetHasTheInvariant : Obligations.ResetHasTheInvariant := by
  unfold Obligations.ResetHasTheInvariant
  exact inv_iff.mpr ⟨frameAcc_preset_ok _ _, allOrNothing_zero, audio_preset_ok, tape_preset_ok, rfl⟩

/-! ### Every operation keeps them -/

theorem effectOf_frm (s : State) {i : Instr}
    (h : (∀ port data, i ≠ .portw port data) ∧ (∀ en, i ≠ .line en) ∧ i ≠ .eof ∧ i ≠ .mreset ∧ i ≠ .preset) :
    (s.effectOf i).frm = s.frm := by
  cases i with
  | portw | line | eof | mreset | preset => simp at h
  | _ => simp [State.effectOf]

theorem effectOf_fault (s : State) {i : Instr} (h : (∀ en, i ≠ .line en) ∧ i ≠ .preset) :
    (s.effectOf i).err.fault = s.err.fault := by
  cases i with
  | line | preset => simp at h
  | tload img => exact (returnLoad_setApart s img).fault
  | _ => simp [State.effectOf]

theorem effectOf_frmOk {s : State} {i : Instr} (hi : s.refusalOf i = none) (h : s.frm.Ok s.err.fault) :
    (s.effectOf i).frm.Ok (s.effectOf i).err.fault := by
  obtain ⟨hline, hacc, hfcyc⟩ := h
  cases i with
  | line en =>
    obtain ⟨-, hfault, hlt, -⟩ := lineWhy_eq_none_iff.mp hi
    obtain he | ⟨f, he⟩ := effectOf_line_cases s en
    · rw [he, lineDone_frm, lineReturned_frm]
      refine ⟨?_, ?_, fun _ => ?_⟩
      · show s.frm.line + 1 ≤ 312
        omega
      · dsimp only
        split
        · refine allOrNothing_set hacc _ ?_
          rw [lineDone_dur]
          split <;> simp
        · exact hacc
      · show s.frm.fcyc + 224 = 224 * (s.frm.line + 1)
        rw [hfcyc hfault]
        omega
    · rw [he, State.raise_frm, lineReturned_frm]
      exact ⟨hline, hacc, by simp⟩
  | portw port data =>
    have hframe : s.PortFrame (s.effectOf (.portw port data)) := portWrite_portFrame s port data
    refine ⟨hframe.line ▸ hline, hframe.acc ▸ hacc, fun hf => ?_⟩
    rw [hframe.fcyc, hframe.line]
    exact hfcyc (hframe.err ▸ hf)
  | eof => exact ⟨Nat.zero_le _, by simpa [State.effectOf] using hacc, fun _ => rfl⟩
  | mreset => exact ⟨Nat.zero_le _, by simpa [State.effectOf, machineReset_frm] using hacc, fun _ => rfl⟩
  | preset => exact frameAcc_preset_ok _ _
  | _ =>
    rw [effectOf_frm s (by simp), effectOf_fault s (by simp)]
    exact ⟨hline, hacc, hfcyc⟩

theorem effectOf_mbOk {s : State} {i : Instr} (hacc : AllOrNothing s.frm.acc) (h : AllOrNothing s.mbx.mb) :
    AllOrNothing (s.effectOf i).mbx.mb := by
  cases i with
  | post => exact hacc
  | take =>
    show AllOrNothing s.takeFrame.mbx.mb
    rw [takeFrame_eq]
    exact h
  | preset => exact allOrNothing_zero
  | _ => rw [effectOf_mbx s (by simp)]; exact h

theorem effectOf_tap (s : State) {i : Instr} (h : (∀ img, i ≠ .tload img) ∧ (∀ k, i ≠ .tblock k) ∧ i ≠ .preset) :
    (s.effectOf i).tap = s.tap := by
  cases i with
  | tload | tblock | preset => simp at h
  | line en => exact (effectOf_line_rest s en).tap
  | _ => simp [State.effectOf]

theorem effectOf_tapOk {s : State} {i : Instr} (h : s.tap.Ok) : (s.effectOf i).tap.Ok := by
  cases i with
  | tload img => exact (returnLoad_setApart s img).tapOk h
  | tblock k => exact ⟨h.tln_le, h.tphase_le, h.tacc_allOrNothing⟩
  | preset => exact tape_preset_ok
  | _ => rw [effectOf_tap s (by simp)]; exact h

theorem effectOf_run {s : State} (i : Instr) (h : s.cpu.run = none) : (s.effectOf i).cpu.run = none := by
  cases i with
  | line en => exact (effectOf_line_rest s en).run
  | preset => rfl
  | _ => simpa [State.effectOf] using h

/-- The frame `RENDER` writes is within the peak, and so is its carry (R190, R193). -/
theorem rendered_within {s : State} (h : s.aud.Ok s.snk.sq.length) :
    Within Config.peak s.renderedFrame ∧ s.renderedCarry.natAbs ≤ Config.peak := by
  have hcur := allOrNothing_le h.cur_allOrNothing
  have hvol : s.aud.vol - 2 ≤ 10 := by have := h.vol_le; omega
  obtain ⟨hfade1, hfade2⟩ := fade_range
  cases hv : s.aud.curValid with
  | false =>
    obtain ⟨hf, hc⟩ := renderedFrame_of_none hv
    rw [hf, hc]
    exact ⟨fun i hi => by simp, by simp⟩
  | true =>
    cases hsrc : s.aud.curSrc with
    | beeper =>
      obtain ⟨hf, hc⟩ := renderedFrame_of_beeper hv hsrc
      rw [hf, hc]
      refine ⟨fun i hi => ?_, by simp⟩
      rw [renderSteady, tabulate_getElem]
      exact steadySample_natAbs_le hfade1 hfade2 h.vol_le hi hcur
    | tape =>
      obtain ⟨hf, hc⟩ := renderedFrame_of_tape hv hsrc
      rw [hf, hc]
      refine ⟨fun i hi => ?_, tapeUnsmoothed_natAbs_le hvol (by decide) hcur⟩
      rw [renderTape, tabulate_getElem]
      exact tapeSample_natAbs_le hvol hi h.carry_le hcur

theorem within_set {pcm : Vector PcmFrame 2} {m : Nat} (h : ∀ b : Fin 2, Within m pcm[b]) (a : Fin 2) {f : PcmFrame}
    (hf : Within m f) (b : Fin 2) : Within m (pcm.set a f)[b] := by
  by_cases hab : a = b
  · subst hab
    rw [show (pcm.set a f)[a] = f from Vector.getElem_set_self ..]
    exact hf
  · rw [show (pcm.set a f)[b] = pcm[b] from Vector.getElem_set_ne a.isLt b.isLt fun he => hab (Fin.ext he)]
    exact h b

theorem effectOf_aud (s : State) {i : Instr} (h : (∀ level, i ≠ .setvol level) ∧ i ≠ .take ∧ i ≠ .render ∧ i ≠ .submit ∧
    i ≠ .wait ∧ i ≠ .flip ∧ i ≠ .preset) : (s.effectOf i).aud = s.aud := by
  cases i with
  | setvol | take | render | submit | wait | flip | preset => simp at h
  | line en => exact (effectOf_line_rest s en).aud
  | _ => simp [State.effectOf]

/-- An accepted operation of the audio context is at its position. -/
theorem aph_of_audioWhy {s : State} {ph : APhase} (h : s.audioWhy ph = none) : s.aud.aph = ph := by
  obtain ⟨-, -, hp⟩ := barred_eq_none.mp h
  exact offPhase_eq_none.mp hp

theorem effectOf_audOk {s : State} {i : Instr} (hi : s.refusalOf i = none) (hmb : AllOrNothing s.mbx.mb)
    (h : s.aud.Ok s.snk.sq.length) : (s.effectOf i).aud.Ok (s.effectOf i).snk.sq.length := by
  obtain ⟨hcur, hvol, hpcm, hheld, hheld1, hcarry⟩ := h
  cases i with
  | setvol level =>
    obtain ⟨-, -, hlevel⟩ := setvolWhy_eq_none_iff.mp hi
    exact ⟨hcur, hlevel, hpcm, hheld, hheld1, hcarry⟩
  | take =>
    have hone := hheld1 (by rw [aph_of_audioWhy hi]; nofun)
    show Audio.Ok { s.takeFrame.aud with aph := .render } s.takeFrame.snk.sq.length
    rw [takeFrame_eq]
    refine ⟨?_, hvol, hpcm, hheld, fun _ => hone, hcarry⟩
    dsimp only
    split
    · exact hmb
    · exact hcur
  | render =>
    have hone := hheld1 (by rw [aph_of_audioWhy hi]; nofun)
    obtain ⟨hframe, hc⟩ := rendered_within ⟨hcur, hvol, hpcm, hheld, hheld1, hcarry⟩
    exact ⟨hcur, hvol, within_set hpcm s.aud.ab hframe, hheld, fun _ => hone, hc⟩
  | submit =>
    have hone := hheld1 (by rw [aph_of_audioWhy hi]; nofun)
    refine ⟨hcur, hvol, hpcm, ?_, fun hw => absurd rfl hw, hcarry⟩
    show (s.snk.sq ++ [s.activeBuffer]).length ≤ 2
    rw [List.length_append, List.length_singleton]
    omega
  | wait =>
    show Audio.Ok s.waitOn.aud s.waitOn.snk.sq.length
    rw [waitOn_snk, State.waitOn]
    split
    · next hone => exact ⟨hcur, hvol, hpcm, hheld, fun _ => hone, hcarry⟩
    · exact ⟨hcur, hvol, hpcm, hheld, hheld1, hcarry⟩
  | flip =>
    have hone := hheld1 (by rw [aph_of_audioWhy hi]; nofun)
    exact ⟨hcur, hvol, hpcm, hheld, fun _ => hone, hcarry⟩
  | sinkdone =>
    have hlen : s.snk.sq.tail.length ≤ s.snk.sq.length := by rw [List.length_tail]; omega
    exact ⟨hcur, hvol, hpcm, hlen.trans hheld, fun hw => hlen.trans (hheld1 hw), hcarry⟩
  | preset => exact audio_preset_ok
  | _ =>
    rw [effectOf_aud s (by simp), effectOf_snk s (by simp)]
    exact ⟨hcur, hvol, hpcm, hheld, hheld1, hcarry⟩

theorem effectOf_inv {s : State} {i : Instr} (hi : s.refusalOf i = none) (h : s.Inv) : (s.effectOf i).Inv := by
  obtain ⟨hfrm, hmb, haud, htap, hrun⟩ := inv_iff.mp h
  exact inv_iff.mpr ⟨effectOf_frmOk hi hfrm, effectOf_mbOk hfrm.acc_allOrNothing hmb, effectOf_audOk hi hmb haud,
    effectOf_tapOk htap, effectOf_run i hrun⟩

/-! ### Every step keeps them -/

theorem doChunk_inv {s : State} (n : Nat) (h : s.Inv) : (s.doChunk n).Inv := by
  obtain ⟨⟨hline, hacc, hfcyc⟩, hmb, haud, htap, hrun⟩ := inv_iff.mp h
  have hf := doChunk_chunkFrame s n
  rw [inv_iff, hf.aud, hf.sq, hf.frm]
  refine ⟨⟨hline, hacc, fun hfault => hfcyc (hf.fault hfault)⟩, ?_, haud, hf.tapOk htap, hf.run hrun⟩
  obtain hm | ⟨-, hm⟩ := hf.mbx
  · rw [hm]
    exact hmb
  · rw [hm]
    exact allOrNothing_set htap.tacc_allOrNothing _ (by split <;> simp)

theorem setApart_inv {s t : State} (hs : s.SetApart t) (h : s.Inv) : t.Inv := by
  obtain ⟨hfrm, hmb, haud, htap, hrun⟩ := inv_iff.mp h
  rw [inv_iff, hs.frm, hs.fault, hs.mbx, hs.aud, hs.sq, hs.cpu]
  exact ⟨hfrm, hmb, haud, hs.tapOk htap, hrun⟩

/-- The turn of any agent keeps the invariants. -/
theorem stepAs_inv {g : Agent} {s t : State} (h : s.Inv) (hstep : stepAs g s = .next t) : t.Inv := by
  have hfetch : (s.fetchAs g).2.Inv := by
    obtain ⟨-, hfrm, herr, hmbx, haud, htap, hsnk, -, -, hrun⟩ := fetchAs_frame g s
    obtain ⟨h1, h2, h3, h4, h5⟩ := inv_iff.mp h
    rw [inv_iff, hfrm, herr, hmbx, haud, htap, hsnk]
    exact ⟨h1, h2, h3, h4, hrun h5⟩
  obtain ⟨i, -, hi, rfl⟩ | ⟨n, -, rfl⟩ | hset :=
    takeTurn_next_outside (k := (s.fetchAs g).1) (u := (s.fetchAs g).2) hfetch.no_run hstep
  · exact effectOf_inv hi hfetch
  · exact doChunk_inv n hfetch
  · exact setApart_inv hset hfetch

/-- Settles O54: an operation accepted, a chunk and any other part each keep the groups of `inv_iff`. -/
theorem stepKeepsTheInvariant : Obligations.StepKeepsTheInvariant := by
  unfold Obligations.StepKeepsTheInvariant
  refine ⟨fun s t h hstep => ?_, fun g s t h hstep => stepAs_inv h hstep⟩
  have hgroups := inv_iff.mp h
  have hdraw : s.drawAgent.2.Inv := by
    obtain ⟨n, hn⟩ := drawAgent_eq s
    rw [hn]
    exact inv_iff.mpr hgroups
  exact stepAs_inv hdraw hstep

end Sys2Proof.Machine

/-!
PROOFS. The parser's checks in their order (R147, R239), and the pulse list of a block read at a position (R149, R99).
-/
namespace Sys2Proof.Machine

/-! ### The first failing check of a record -/

theorem parseFrom_declares_too_many {lo hi : Byte} {rest : List Byte} (p : Nat) (h : rest.length < recordLength lo hi) :
    parseFrom (lo :: hi :: rest) 0 p = .error .tapeLen := by
  rw [parseFrom, if_pos h]

theorem parseFrom_declares_none {lo hi : Byte} (rest : List Byte) (p : Nat) (h : recordLength lo hi = 0) :
    parseFrom (lo :: hi :: rest) 0 p = .error .tapeFraming := by
  rw [parseFrom, if_neg (by omega), if_pos h]

theorem parseFrom_bad_flag {lo hi : Byte} {rest : List Byte} (p : Nat) (hpos : 1 ≤ recordLength lo hi)
    (hle : recordLength lo hi ≤ rest.length) (hflag : rest.head?.any flagOk = false) :
    parseFrom (lo :: hi :: rest) 0 p = .error .tapeFraming := by
  rw [parseFrom, if_neg (by omega), if_neg (by omega), if_pos hflag]

/-- Settles O26: the checks of `parseFrom` one after another. -/
theorem parserReportsTheFirstFailingCheck : Obligations.ParserReportsTheFirstFailingCheck := by
  unfold Obligations.ParserReportsTheFirstFailingCheck
  refine fun lo hi rest p => ⟨rfl, parseFrom_declares_too_many p, parseFrom_declares_none rest p, ?_⟩
  rintro f more rfl h0 hff hpos hle
  refine parseFrom_bad_flag p hpos hle ?_
  rw [List.head?_cons, Option.any_some, ← Bool.not_eq_true, flagOk_iff]
  exact not_or.mpr ⟨h0, hff⟩

/-! ### The pulses of a byte -/

theorem length_bytePulses (b : Byte) : (bytePulses b).length = 16 := rfl

/-- Pulse `j` of a byte is of the bit `j / 2` from the top. -/
theorem bytePulses_getElem? (b : Byte) {j : Nat} (h : j < 16) :
    (bytePulses b)[j]? = some (bitWidth (b.getLsbD (7 - j / 2))) := by
  interval_cases j <;> rfl

/-- The number of ones of a byte. -/
def onesOf (b : Byte) : Nat := (List.range 8).countP fun k => b.getLsbD k

/-- A bit takes 1710 cycles, and 1710 more if it is 1. -/
theorem sum_bytePulses (b : Byte) : (bytePulses b).sum = 1710 * (8 + onesOf b) := by
  have hbit : ∀ k, bitWidth (b.getLsbD k) = 855 * (1 + if b.getLsbD k then 1 else 0) := by
    intro k
    cases b.getLsbD k <;> rfl
  rw [onesOf, show List.range 8 = [0, 1, 2, 3, 4, 5, 6, 7] from rfl]
  simp only [bytePulses, hbit, List.flatMap_cons, List.flatMap_nil, List.sum_append, List.sum_cons, List.sum_nil,
    List.countP_cons, List.countP_nil]
  ring

/-! ### The pulse list -/

theorem length_flatMap_bytePulses (d : List Byte) : (d.flatMap bytePulses).length = 16 * d.length := by
  induction d with
  | nil => rfl
  | cons b d ih => rw [List.flatMap_cons, List.length_append, length_bytePulses, ih, List.length_cons]; omega

theorem flatMap_bytePulses_getElem? (d : List Byte) {m : Nat} (h : m < 16 * d.length) :
    (d.flatMap bytePulses)[m]? = some (bitWidth ((d[m / 16]?.getD 0).getLsbD (7 - m % 16 / 2))) := by
  induction d generalizing m with
  | nil => simp at h
  | cons b d ih =>
    rw [List.flatMap_cons]
    by_cases hm : m < 16
    · rw [List.getElem?_append_left hm, bytePulses_getElem? b hm, Nat.div_eq_of_lt hm, Nat.mod_eq_of_lt hm]
      rfl
    · rw [List.length_cons] at h
      rw [List.getElem?_append_right (by rw [length_bytePulses]; omega), length_bytePulses, ih (by omega),
        show m / 16 = (m - 16) / 16 + 1 by omega, show (m - 16) % 16 = m % 16 by omega, List.getElem?_cons_succ]

theorem sum_flatMap_bytePulses (d : List Byte) :
    (d.flatMap bytePulses).sum = 1710 * (8 * d.length + (d.map onesOf).sum) := by
  induction d with
  | nil => rfl
  | cons b d ih =>
    rw [List.flatMap_cons, List.sum_append, sum_bytePulses, ih, List.length_cons, List.map_cons, List.sum_cons]
    ring

theorem pilotCount_cases (d : List Byte) :
    d.head? = some 0x00#8 ∧ pilotCount d = 8063 ∨ d.head? ≠ some 0x00#8 ∧ pilotCount d = 3223 := by
  unfold pilotCount
  by_cases h : d.head? = some 0x00#8
  · exact .inl ⟨h, if_pos h⟩
  · exact .inr ⟨h, if_neg h⟩

theorem length_pulses (d : List Byte) : (pulses d).length = pulseCount d := by
  rw [pulses, List.length_append, List.length_append, List.length_replicate, length_flatMap_bytePulses]
  rfl

/-- The position found without the list is the list's element there (R149). -/
theorem pulses_getElem? (d : List Byte) {k : Nat} (h : k < pulseCount d) : (pulses d)[k]? = some (pulseAt d k) := by
  unfold pulseCount at h
  unfold pulses pulseAt
  rw [List.append_assoc]
  by_cases hpilot : k < pilotCount d
  · rw [List.getElem?_append_left (by simpa using hpilot), List.getElem?_replicate, if_pos hpilot, if_pos hpilot]
  · rw [List.getElem?_append_right (by simpa using hpilot), List.length_replicate, if_neg hpilot]
    obtain rfl | rfl | hbits : k = pilotCount d ∨ k = pilotCount d + 1 ∨ pilotCount d + 2 ≤ k := by omega
    · simp
    · simp
    · rw [if_neg (by omega), if_neg (by omega), List.getElem?_append_right (by simp; omega)]
      rw [show k - pilotCount d - [Config.tSync1, Config.tSync2].length = k - (pilotCount d + 2) by simp; omega]
      exact flatMap_bytePulses_getElem? d (by omega)

/-- Settles O27: positions in the three segments of the list (`pulses_getElem?`), and its length and sum segment by
segment. -/
theorem pulsePlayedIsThePulseListed : Obligations.PulsePlayedIsThePulseListed := by
  unfold Obligations.PulsePlayedIsThePulseListed
  intro d
  refine ⟨fun h => ?_, fun h => ?_, fun k => pulses_getElem? d, length_pulses d, ?_, ?_⟩
  · exact if_pos h
  · exact if_neg (by rw [h]; decide)
  · rw [length_pulses, pulseCount]
    obtain ⟨-, h⟩ | ⟨-, h⟩ := pilotCount_cases d <;> omega
  · show _ = 2168 * pilotCount d + 1402 + 1710 * (8 * d.length + (d.map onesOf).sum)
    rw [pulses, List.sum_append, List.sum_append, List.sum_replicate, sum_flatMap_bytePulses]
    simp [Config.tPilot, Config.tSync1, Config.tSync2]
    ring

end Sys2Proof.Machine

/-!
PROOFS. The tape load taken apart by what becomes of it, and the parts of a block and of a whole load (R146, R153, R154,
R158, R159).
-/
namespace Sys2Proof.Machine

/-! ### A load: parsed, rejected, or without memory -/

/-- An allocation answered leaves who issues and what is left to do. -/
theorem drawAlloc_env (s : State) :
    s.drawAlloc.2.env.issuer = s.env.issuer ∧ s.drawAlloc.2.env.cmds = s.env.cmds ∧
      s.drawAlloc.2.env.pWork = s.env.pWork ∧ s.drawAlloc.2.env.aWork = s.env.aWork := by
  unfold State.drawAlloc
  split <;> exact ⟨rfl, rfl, rfl, rfl⟩

theorem drawAlloc_cons {s : State} {ok : Bool} {more : List Bool} (h : s.env.allocs = ok :: more) :
    s.drawAlloc.1 = ok := by
  rw [State.drawAlloc, h]

/-- Why a load fails, if it does: the parser's error, or no memory (R230). -/
def LoadFails (s : State) (img : List Byte) (e : ErrCode) : Prop :=
  s.drawAlloc.1 = true ∧ parseTape img = .error e ∨ s.drawAlloc.1 = false ∧ e = .noMem

theorem loadTape_of_parsed {s : State} {img : List Byte} {bs : List (Nat × Nat)} (ha : s.drawAlloc.1 = true)
    (hp : parseTape img = .ok bs) :
    s.loadTape img = (true, { s.drawAlloc.2 with tap := { s.tap with timg := img, tblk := bs }, err.terr := .none }) := by
  simp [State.loadTape, ha, hp]

theorem loadTape_of_fails {s : State} {img : List Byte} {e : ErrCode} (h : LoadFails s img e) :
    s.loadTape img = (false, { s.drawAlloc.2 with
      tap := { s.tap with timg := if s.drawAlloc.1 then img else s.tap.timg, tblk := [] }, err.terr := e }) := by
  obtain ⟨ha, hp⟩ | ⟨ha, rfl⟩ := h
  · simp [State.loadTape, State.loadFailed, ha, hp]
  · simp [State.loadTape, State.loadFailed, ha]

theorem loadTape_env (s : State) (img : List Byte) : (s.loadTape img).2.env = s.drawAlloc.2.env := by
  unfold State.loadTape
  cases s.drawAlloc.1 with
  | false => rfl
  | true => cases parseTape img <;> rfl

theorem returnLoad_returns {s : State} (h : s.MayIssue .p) (img : List Byte) :
    (s.returnLoad img).log = { s.log with returns := s.log.returns ++ [(.p, .bool (s.loadTape img).1)] } := by
  obtain ⟨hi, -⟩ := h
  obtain ⟨hissuer, -⟩ := drawAlloc_env s
  simp [loadTape_env, hissuer, hi]

/-- Settles O23: the load is accepted, and returns what `loadTape` says in each of its cases. -/
theorem tloadKeepsTheBlocksOrTheReason : Obligations.TloadKeepsTheBlocksOrTheReason := by
  unfold Obligations.TloadKeepsTheBlocksOrTheReason
  intro s img h ht
  obtain ⟨-, -, hp, ha⟩ := drawAlloc_env s
  obtain ⟨-, herr⟩ := loadTape_tap_err s img
  refine ⟨s.returnLoad img, (s.loadTape img).1, exec_of_inPlace h (not_not.mpr ht), returnLoad_returns h img,
    by simp, by simp, by simp, by simp, by simp, by simp, ?_, ?_, ?_, ?_, ?_, ?_, ?_⟩
  · rw [State.returnLoad_err, herr]
    exact h.2
  · rw [State.returnLoad_err, herr]
  · rw [State.returnLoad_env, loadTape_env, hp]
  · rw [State.returnLoad_env, loadTape_env, ha]
  · intro bs halloc hparse
    simp [loadTape_of_parsed halloc hparse]
  · intro e halloc hparse
    simp [loadTape_of_fails (.inl ⟨halloc, hparse⟩), halloc]
  · intro halloc
    simp [loadTape_of_fails (.inr ⟨halloc, rfl⟩), halloc]

/-! ### The pulses of a block -/

/-- Every pulse listed is a `PULSE` of the same width: none is empty or too wide for its operand. -/
theorem pulses_width {d : List Byte} {w : Nat} (h : w ∈ pulses d) : w ≠ 0 ∧ (BitVec.ofNat 16 w).toNat = w := by
  have hw : w = 2168 ∨ w = 667 ∨ w = 735 ∨ w = 855 ∨ w = 1710 := by
    have hbit : ∀ one, bitWidth one = 855 ∨ bitWidth one = 1710 := by decide
    rw [pulses, List.mem_append, List.mem_append, List.mem_replicate, List.mem_flatMap] at h
    obtain (⟨-, h⟩ | h) | ⟨b, -, h⟩ := h
    · exact .inl h
    · simp [Config.tSync1, Config.tSync2] at h
      omega
    · obtain ⟨k, -, h⟩ := List.mem_flatMap.mp h
      simp at h
      have := hbit (b.getLsbD k)
      omega
  obtain rfl | rfl | rfl | rfl | rfl := hw <;> decide

theorem doPulse_of_ready {s : State} {w : BitVec 16} (h : s.MayIssue .p) (hl : s.frm.line = 0) (hw : w.toNat ≠ 0) :
    s.doPulse w = s.startPulse w.toNat := by
  rw [State.doPulse, pulseWhy_eq_none h hl hw, attempt_done]

/-- Settles O32: a listed pulse is no empty one and fits its operand (`pulses_width`), so its `PULSE` is accepted. -/
theorem tblockPlaysItsPulseListThenRefreshes : Obligations.TblockPlaysItsPulseListThenRefreshes := by
  unfold Obligations.TblockPlaysItsPulseListThenRefreshes
  refine ⟨fun s i h hl hi => ?_, fun s k w h hl hk => ?_, fun s k hk => ?_⟩
  · exact exec_of_inPlace h (by simp [State.OutOfPlace, hl, hi])
  · obtain ⟨hlt, -⟩ := List.getElem?_eq_some_iff.mp hk
    rw [length_pulses] at hlt
    have hat : pulseAt s.blockPayload k = w := Option.some_inj.mp ((pulses_getElem? _ hlt).symm.trans hk)
    obtain ⟨hw0, hw⟩ := pulses_width (List.mem_of_getElem? hk)
    have hready : State.MayIssue ({ s with tap.tpi := k }.pushP [.blockPulse (k + 1)]) .p := h
    rw [State.doTask, State.doBlockPulse, if_pos hlt, hat]
    refine (doPulse_of_ready hready hl (by rwa [hw])).trans ?_
    rw [hw]
    rfl
  · rw [length_pulses] at hk
    rw [State.doTask, State.doBlockPulse, if_neg (by omega)]
    rfl

/-! ### The parts of `TPLAY` -/

theorem doTask_playLoad_of_parsed {s : State} {img : List Byte} {bs : List (Nat × Nat)} (h : s.MayIssue .p)
    (ht : s.tap.tst = .idle) (ha : s.drawAlloc.1 = true) (hp : parseTape img = .ok bs) :
    s.doTask (.playLoad img) = (s.returnLoad img).playLoaded := by
  rw [State.doTask, State.doPlayLoad, tloadWhy_eq_none h ht, attempt_done, loadTape_of_parsed ha hp, if_pos rfl]

/-- A `false` is passed on (R159). -/
theorem doTask_playLoad_of_fails {s : State} {img : List Byte} {e : ErrCode} (h : s.MayIssue .p)
    (ht : s.tap.tst = .idle) (hf : LoadFails s img e) :
    s.doTask (.playLoad img) = (s.returnLoad img).giveBack (.bool false) := by
  rw [State.doTask, State.doPlayLoad, tloadWhy_eq_none h ht, attempt_done, loadTape_of_fails hf, if_neg (by simp)]

/-- Settles O35: the load of a parsed image ends in `playLoaded`, a failed one in its `false`. -/
theorem tplayResetsLoadsAndBoots : Obligations.TplayResetsLoadsAndBoots := by
  unfold Obligations.TplayResetsLoadsAndBoots
  refine ⟨fun s img => exec_tplay img, fun s img b bs h ht ha hp => ?_, fun s img e h ht hf => ?_⟩
  all_goals obtain ⟨hissuer, -, hwork, -⟩ := drawAlloc_env s
  · refine ⟨_, doTask_playLoad_of_parsed h ht ha hp, ?_⟩
    simp [State.playLoaded, State.returnLoad, loadTape_of_parsed ha hp, State.pushP, State.giveBack, hwork, hissuer, h.1]
  · refine ⟨_, doTask_playLoad_of_fails h ht hf, ?_⟩
    simp [State.returnLoad, loadTape_of_fails hf, State.giveBack, hwork, hissuer, h.1]

/-- Settles O36: the `TBLOCK` and the `TPAUSE` inside are accepted where `P` may issue between frames. -/
theorem tapeBlocksArePlayedInOrder : Obligations.TapeBlocksArePlayedInOrder := by
  unfold Obligations.TapeBlocksArePlayedInOrder
  refine fun s i h hl => ⟨fun hi => ?_, fun hi => ?_, ?_⟩
  · have hwhy : State.tblockWhy ({ s with tap.tst := .pulses }.pushP [.playPause i]) i = none := by
      refine (barred_of_ready _ h (by simp)).trans ?_
      exact (if_pos hi).trans (midFrame_eq_none.mpr hl)
    rw [State.doTask, State.doPlayBlock, if_pos hi]
    dsimp only
    rw [hwhy]
    rfl
  · rw [State.doTask, State.doPlayBlock, if_neg (by omega), State.giveBack, ← h.1]
  · have hwhy : State.tpauseWhy { s with tap.tst := .pause } = none := barred_of_ready _ h (by simp)
    rw [State.doTask, State.doPlayPause]
    dsimp only
    rw [hwhy]
    rfl

end Sys2Proof.Machine

/-!
PROOFS. A whole `TPLAY` that is over with its load: the empty image, and the load that fails (R159, R160).
-/
namespace Sys2Proof.Machine

/-- `P` stands before the load of a `TPLAY` it issued in `s` with commands `cs` after it: the machine is reset. -/
structure State.BeforeLoad (s u : State) (cs : List Cmd) : Prop where
  ready : u.MayIssue .p
  log : u.log = { s.log with calls := s.log.calls ++ [.reset] }
  tap : u.tap = s.tap
  err : u.err = s.err
  beep : u.lat.beep = false
  ear : u.lat.ear = false
  frm : u.frm = { s.frm with dur := 0, seen := false, fcyc := 0 }
  mbx : u.mbx = s.mbx
  aud : u.aud = s.aud
  snk : u.snk = s.snk
  pWork : u.env.pWork = []
  cmds : u.env.cmds.p = cs
  allocs : u.env.allocs = s.env.allocs

/-- `P` has issued `TPLAY img`. -/
def State.tplayIssued (s : State) (img : List Byte) (cs : List Cmd) : State :=
  { s with env.issuer := .p, env.cmds.p := cs, env.pWork := [.op .mreset, .playLoad img] }

/-- The machine reset of the `TPLAY` is done. -/
def State.tplayReset (s : State) (img : List Byte) (cs : List Cmd) : State :=
  State.machineReset { s.tplayIssued img cs with env.pWork := [.playLoad img] }

/-- The three turns of a `TPLAY` whose load ends it: the composite, its machine reset, its load. -/
theorem runAs_tplay {s : State} {img : List Byte} {cs : List Cmd} (hr : s.cpu.run = none) (hf : s.err.fault = false)
    (ht : s.tap.tst = .idle) (hl : s.frm.line = 0) (hw : s.env.pWork = [])
    (hc : s.env.cmds.p = encode (.tplay img) :: cs) :
    ∃ u, runAs [.p, .p, .p] s = .next (u.doTask (.playLoad img)) ∧ s.BeforeLoad u cs := by
  have hissue : stepAs .p s = .next (s.tplayIssued img cs) := by
    rw [stepAs_p_cmd hr hw hc]
    refine (exec_tplay img ?_ ?_ ?_).trans ?_
    · exact ⟨rfl, hf⟩
    · exact ht
    · exact hl
    · rw [State.pushP, hw]
      rfl
  have hreset : stepAs .p (s.tplayIssued img cs) = .next (s.tplayReset img cs) :=
    (stepAs_p_op (s := s.tplayIssued img cs) hr rfl).trans (exec_mreset (s := { s.tplayIssued img cs with
      env.pWork := [.playLoad img] }) ⟨rfl, hf⟩ ht)
  have henv : Env.Same _ (s.tplayReset img cs).env := machineReset_env _
  have hload := stepAs_p_task (s := s.tplayReset img cs) (by simpa [State.tplayReset, State.tplayIssued] using hr) henv.pWork
  refine ⟨_, (runAs_cons _ hissue).trans ((runAs_cons _ hreset).trans (runAs_cons [] hload)), ?_⟩
  constructor
  case ready => exact ⟨rfl, by simpa [State.tplayReset, State.tplayIssued] using hf⟩
  case log => exact machineReset_log _
  case frm => exact (machineReset_frm _).trans (by rw [← hl]; rfl)
  case pWork => rfl
  case cmds => exact congrArg Pending.p henv.cmds
  case allocs => exact henv.allocs
  all_goals simp [State.tplayReset, State.machineReset, State.tplayIssued]

/-- Settles O37: by `runAs_tplay`, with the empty image parsed to no blocks. -/
theorem emptyImageLoadsWithoutRunningTheCpu : Obligations.EmptyImageLoadsWithoutRunningTheCpu := by
  unfold Obligations.EmptyImageLoadsWithoutRunningTheCpu
  intro s cs more hr hf ht hl hw hc ha
  obtain ⟨u, hrun, h⟩ := runAs_tplay hr hf ht hl hw hc
  have hu : u.tap.tst = .idle := h.tap ▸ ht
  have halloc : u.drawAlloc.1 = true := drawAlloc_cons (h.allocs.trans ha)
  have hempty : parseTape [] = .ok [] := rfl
  have hload : (u.returnLoad []).tap.tblk = [] := by simp [loadTape_of_parsed halloc hempty]
  rw [doTask_playLoad_of_parsed h.ready hu halloc hempty, State.playLoaded, if_pos hload] at hrun
  obtain ⟨hissuer, hcmds, hwork, -⟩ := drawAlloc_env u
  refine ⟨_, hrun, ?_⟩
  simp [State.returnLoad, loadTape_of_parsed halloc hempty, State.giveBack, hissuer, hcmds, hwork, h.ready.1, h.log,
    h.tap, h.err, h.beep, h.ear, h.frm, h.mbx, h.aud, h.snk, h.pWork, h.cmds]

/-- Settles O38: by `runAs_tplay`, and O35 for the failed load. -/
theorem failedLoadLeavesTheResetMachine : Obligations.FailedLoadLeavesTheResetMachine := by
  unfold Obligations.FailedLoadLeavesTheResetMachine
  intro s img e ok cs more hr hf ht hl hw hc ha hfail
  obtain ⟨u, hrun, h⟩ := runAs_tplay hr hf ht hl hw hc
  have hu : u.tap.tst = .idle := h.tap ▸ ht
  have halloc : u.drawAlloc.1 = ok := drawAlloc_cons (h.allocs.trans ha)
  obtain ⟨-, -, hloadFails⟩ := tplayResetsLoadsAndBoots
  obtain ⟨t, rfl, htap, herr, hwork, hlat, hfrm, hmbx, haud, hsnk, -, hlog⟩ :=
    hloadFails u img e h.ready hu (by rwa [halloc])
  rw [halloc, h.tap] at htap
  exact ⟨_, hrun, by rw [hlog, h.log], htap, by rw [herr, h.err], by rw [hlat, h.beep], by rw [hlat, h.ear],
    hfrm.trans h.frm, hmbx.trans h.mbx, haud.trans h.aud, hsnk.trans h.snk, hwork.trans h.pWork⟩

end Sys2Proof.Machine

/-!
PROOFS. A whole `PULSE`: its chunks one after another, by induction on the runs (R150, R151, R152, R162).
-/
namespace Sys2Proof.Machine

/-! ### The chunks of a pulse -/

theorem pulseRuns_of_le {phase n : Nat} (h : n ≤ 224 - phase) : pulseRuns phase n = [n] := if_pos h

/-- A pulse that goes on after the line's end starts there at phase 0. -/
theorem pulseRuns_of_lt {phase n : Nat} (h : 224 - phase < n) :
    pulseRuns phase n = (224 - phase) :: pulseRuns 0 (n - (224 - phase)) := by
  rw [pulseRuns, if_neg (by omega)]
  generalize hm : n - (224 - phase) = m
  have hpos : 0 < m := by omega
  congr 1
  obtain hlt | rfl | hgt : m < 224 ∨ m = 224 ∨ 224 < m := by omega
  · rw [pulseRuns_of_le (by omega), Nat.div_eq_of_lt hlt, Nat.mod_eq_of_lt hlt, if_neg (by omega)]
    rfl
  · rfl
  · have hfirst : pulseRuns 0 m = 224 :: (List.replicate ((m - 224) / 224) 224 ++
        if (m - 224) % 224 = 0 then [] else [(m - 224) % 224]) := if_neg (by omega)
    rw [hfirst, show m / 224 = (m - 224) / 224 + 1 by omega, show m % 224 = (m - 224) % 224 by omega,
      List.replicate_succ, List.cons_append]

theorem sum_pulseRuns {phase n : Nat} : (pulseRuns phase n).sum = n := by
  by_cases h : n ≤ 224 - phase
  · rw [pulseRuns_of_le h, List.sum_singleton]
  · rw [pulseRuns, if_neg h, List.sum_cons, List.sum_append, List.sum_replicate, smul_eq_mul]
    split
    · simp only [List.sum_nil]
      omega
    · simp only [List.sum_singleton]
      omega

theorem runCycles_append (xs ys : List CpuCall) : runCycles (xs ++ ys) = runCycles xs ++ runCycles ys :=
  List.filterMap_append

/-! ### One chunk, and chunks one after another -/

/-- `n` cycles of a pulse played between `s` and `t`, the CPU unit keeping its contract. -/
structure State.PulseRun (s t : State) (n : Nat) : Prop where
  ear : t.lat.ear = s.lat.ear
  err : t.err = s.err
  aud : t.aud = s.aud
  acc : t.frm.acc = s.frm.acc
  line : t.frm.line = s.frm.line
  run : t.cpu.run = none
  cmds : t.env.cmds = s.env.cmds
  calls : runCycles t.log.calls = runCycles s.log.calls ++ pulseRuns s.tap.tphase n
  tphase : t.tap.tphase = (s.tap.tphase + n) % 224
  tln : t.tap.tln = (s.tap.tln + (s.tap.tphase + n) / 224) % 312
  tfr : t.tap.tfr = s.tap.tfr + (s.tap.tln + (s.tap.tphase + n) / 224) / 312

/-- Cycles up to the line's end, and cycles after it. -/
theorem pulseRun_append {s t u : State} {n : Nat} (hp : s.tap.tphase ≤ 223) (hn : 224 - s.tap.tphase < n)
    (h : s.PulseRun t (224 - s.tap.tphase)) (k : t.PulseRun u (n - (224 - s.tap.tphase))) : s.PulseRun u n := by
  have hsum : s.tap.tphase + (224 - s.tap.tphase) = 224 := by omega
  have htphase : t.tap.tphase = 0 := by rw [h.tphase, hsum]
  have htln := h.tln
  have htfr := h.tfr
  rw [hsum] at htln htfr
  constructor
  case ear => exact k.ear.trans h.ear
  case err => exact k.err.trans h.err
  case aud => exact k.aud.trans h.aud
  case acc => exact k.acc.trans h.acc
  case line => exact k.line.trans h.line
  case run => exact k.run
  case cmds => exact k.cmds.trans h.cmds
  case calls =>
    rw [k.calls, h.calls, htphase, pulseRuns_of_le le_rfl, pulseRuns_of_lt hn, List.append_assoc]
    rfl
  case tphase => rw [k.tphase, htphase]; omega
  case tln => rw [k.tln, htphase, htln]; omega
  case tfr => rw [k.tfr, htphase, htfr, htln]; omega

/-- Whatever line it ends, a chunk that keeps its contract asks for its cycles and no others. -/
theorem doChunk_runCycles {s : State} {n : Nat} (hn : 1 ≤ n) (hp : s.tap.tphase ≤ 223)
    (hc : s.drawRun.1.count = min n (224 - s.tap.tphase)) :
    runCycles (s.doChunk n).log.calls = runCycles s.log.calls ++ [min n (224 - s.tap.tphase)] := by
  by_cases hshort : n < 224 - s.tap.tphase
  · obtain ⟨-, -, -, hcalls⟩ := doChunk_short_rest hn hshort (by omega)
    rw [hcalls, runCycles_append, Nat.min_eq_left hshort.le]
    rfl
  · have hend : (s.atLineEnd n).log.calls = s.log.calls ++ [.run (min n (224 - s.tap.tphase))] :=
      (atLineEnd_callFrame s n).calls
    rw [doChunk_full hp (by omega) (by omega)]
    obtain hcalls | ⟨-, hcalls⟩ := emitLine_calls (s.atLineEnd n)
    · rw [hcalls, hend, runCycles_append]
      rfl
    · rw [hcalls, hend, runCycles_append, runCycles_append]
      exact List.append_nil _

theorem doChunk_pulseRun {s : State} {n : Nat} (hn : 1 ≤ n) (hp : s.tap.tphase ≤ 223) (hl : s.tap.tln ≤ 311)
    (hc : s.drawRun.1.count = min n (224 - s.tap.tphase)) :
    s.PulseRun (s.doChunk n) (min n (224 - s.tap.tphase)) := by
  have hkept := doChunk_kept hn hp hc
  have hcalls := (doChunk_runCycles hn hp hc).trans
    (congrArg _ (pulseRuns_of_le (Nat.min_le_right n _)).symm)
  have hposition : (s.doChunk n).tap.tphase = (s.tap.tphase + min n (224 - s.tap.tphase)) % 224 ∧
      (s.doChunk n).tap.tln = (s.tap.tln + (s.tap.tphase + min n (224 - s.tap.tphase)) / 224) % 312 ∧
      (s.doChunk n).tap.tfr = s.tap.tfr + (s.tap.tln + (s.tap.tphase + min n (224 - s.tap.tphase)) / 224) / 312 := by
    by_cases hshort : n < 224 - s.tap.tphase
    · obtain ⟨htap, -⟩ := doChunk_short_rest hn hshort (by omega)
      rw [htap]
      dsimp only
      omega
    · rw [doChunk_full_tap hp (by omega) (by omega)]
      dsimp only
      by_cases hlast : s.tap.tln = 311
      · rw [if_pos hlast, if_pos hlast]
        omega
      · rw [if_neg hlast, if_neg hlast]
        omega
  obtain ⟨htphase, htln, htfr⟩ := hposition
  exact ⟨hkept.ear, hkept.err, hkept.aud, hkept.acc, hkept.line, hkept.run, hkept.cmds, hcalls, htphase, htln, htfr⟩

/-- `P` has taken the next part off its work list, with `ks` left. -/
def State.partTaken (s : State) (ks : List Task) : State := { s with env.issuer := .p, env.pWork := ks }

/-- The turn of `P` that plays one chunk. -/
theorem stepAs_chunk {s : State} {n : Nat} {ks : List Task} {a : RunAnswer} {as : List RunAnswer}
    (hr : s.cpu.run = none) (hn : 1 ≤ n) (hp : s.tap.tphase ≤ 223) (hl : s.tap.tln ≤ 311)
    (hw : s.env.pWork = .chunk n :: ks) (hruns : s.env.runs = a :: as) (hc : a.count = min n (224 - s.tap.tphase)) :
    ∃ t, stepAs .p s = .next t ∧ s.PulseRun t (min n (224 - s.tap.tphase)) ∧ t.env.runs = as ∧
      t.env.pWork = if n ≤ 224 - s.tap.tphase then ks else .chunk (n - (224 - s.tap.tphase)) :: ks := by
  have hcount : (s.partTaken ks).drawRun.1.count = min n (224 - (s.partTaken ks).tap.tphase) :=
    (congrArg RunAnswer.count (drawRun_cons (s := s.partTaken ks) hruns)).trans hc
  have hkept := doChunk_kept (s := s.partTaken ks) hn hp hcount
  have hpulse := doChunk_pulseRun (s := s.partTaken ks) hn hp hl hcount
  exact ⟨(s.partTaken ks).doChunk n, stepAs_p_task hr hw, { hpulse with }, hkept.runs.trans (congrArg List.tail hruns),
    hkept.pWork⟩

/-- The chunks of a pulse one after another, the CPU unit keeping its contract in each. -/
theorem runAs_chunks (as rest : List RunAnswer) (ks : List Task) :
    ∀ (s : State) (n : Nat), s.cpu.run = none → 1 ≤ n → s.tap.tphase ≤ 223 → s.tap.tln ≤ 311 →
      s.env.pWork = .chunk n :: ks → s.env.runs = as ++ rest →
      as.map RunAnswer.count = pulseRuns s.tap.tphase n →
      ∃ t, runAs (List.replicate as.length .p) s = .next t ∧ s.PulseRun t n ∧ t.env.pWork = ks ∧ t.env.runs = rest := by
  induction as with
  | nil =>
    intro s n _ _ _ _ _ _ hc
    by_cases h : n ≤ 224 - s.tap.tphase
    · rw [pulseRuns_of_le h] at hc; cases hc
    · rw [pulseRuns_of_lt (by omega)] at hc; cases hc
  | cons a as ih =>
    intro s n hr hn hp hl hw hruns hc
    rw [List.map_cons] at hc
    rw [List.length_cons, List.replicate_succ]
    by_cases h : n ≤ 224 - s.tap.tphase
    · have hmin : min n (224 - s.tap.tphase) = n := by omega
      rw [pulseRuns_of_le h] at hc
      obtain ⟨hca, hcas⟩ := List.cons_eq_cons.mp hc
      obtain rfl : as = [] := List.map_eq_nil_iff.mp hcas
      obtain ⟨t, hstep, hrun, htr, htw⟩ := stepAs_chunk hr hn hp hl hw hruns (hca.trans hmin.symm)
      rw [hmin] at hrun
      rw [if_pos h] at htw
      exact ⟨t, runAs_cons [] hstep, hrun, htw, htr⟩
    · have hmin : min n (224 - s.tap.tphase) = 224 - s.tap.tphase := by omega
      rw [pulseRuns_of_lt (by omega)] at hc
      obtain ⟨hca, hcas⟩ := List.cons_eq_cons.mp hc
      obtain ⟨t, hstep, hrun, htr, htw⟩ := stepAs_chunk hr hn hp hl hw hruns (hca.trans hmin.symm)
      rw [hmin] at hrun
      rw [if_neg h] at htw
      have htphase : t.tap.tphase = 0 := by
        rw [hrun.tphase]
        omega
      have htln : t.tap.tln ≤ 311 := by
        rw [hrun.tln]
        omega
      obtain ⟨u, hrunAs, hrest, huw, hur⟩ := ih t (n - (224 - s.tap.tphase)) hrun.run (by omega) (by omega) htln htw htr
        (by rw [htphase]; exact hcas)
      exact ⟨u, (runAs_cons _ hstep).trans hrunAs, pulseRun_append hp (by omega) hrun hrest, huw, hur⟩

/-- `P` has issued `PULSE w`: the toggle is done and the cycles are to be run. -/
def State.pulseIssued (s : State) (w : BitVec 16) (cs : List Cmd) : State :=
  { s with env.issuer := .p, env.cmds.p := cs, env.pWork := [.chunk w.toNat], lat.ear := !s.lat.ear }

theorem stepAs_p_pulse {s : State} {w : BitVec 16} {cs : List Cmd} (hr : s.cpu.run = none) (hf : s.err.fault = false)
    (hl : s.frm.line = 0) (hw : w ≠ 0#16) (hwork : s.env.pWork = []) (hc : s.env.cmds.p = encode (.pulse w) :: cs) :
    stepAs .p s = .next (s.pulseIssued w cs) := by
  rw [stepAs_p_cmd hr hwork hc]
  refine (exec_pulse ?_ ?_ hw).trans ?_
  · exact ⟨rfl, hf⟩
  · exact hl
  · rw [State.startPulse, State.pushP, hwork]
    rfl

/-- Settles O31: the toggle, then the chunks one after another (`runAs_chunks`). -/
theorem pulseRunsToItsEnd : Obligations.PulseRunsToItsEnd := by
  unfold Obligations.PulseRunsToItsEnd
  intro s w cs as rest hr hf hl hw hp htln hwork hc hruns hcount
  have hpos : 1 ≤ w.toNat := Nat.pos_of_ne_zero fun h => hw (BitVec.eq_of_toNat_eq h)
  obtain ⟨t, hrunAs, h, htw, htr⟩ := runAs_chunks as rest [] (s.pulseIssued w cs) w.toNat hr hpos hp htln rfl hruns hcount
  refine ⟨t, ?_, h.ear, h.err, h.aud, h.acc, h.line.trans hl, h.calls, sum_pulseRuns, h.tphase, h.tln, h.tfr, htw,
    congrArg Pending.p h.cmds, htr⟩
  rw [Nat.add_comm, List.replicate_succ]
  exact (runAs_cons _ (stepAs_p_pulse hr hf hl hw hwork hc)).trans hrunAs

end Sys2Proof.Machine

/-!
PROOFS. The two latches: what sets the beeper leaves `EAR`, and what sets `EAR` leaves the beeper (R119).
-/
namespace Sys2Proof.Machine

theorem exec_portw_ear {s t : State} {port : BitVec 16} {data : Byte} (h : exec (.portw port data) s = .next t) :
    t.lat.ear = s.lat.ear := by
  obtain ⟨w, rfl⟩ | ⟨-, rfl⟩ := exec_next h
  · rfl
  · exact State.portWrite_ear s port data

/-- An operation whose effect leaves the beeper leaves it, refused or not. -/
theorem exec_beep {s t : State} {i : Instr} (heffect : (s.effectOf i).lat.beep = s.lat.beep) (h : exec i s = .next t) :
    t.lat.beep = s.lat.beep := by
  obtain ⟨w, rfl⟩ | ⟨-, rfl⟩ := exec_next h
  · rfl
  · exact heffect

/-- The cycles of a pulse leave the latches as the port commands of its run do, and so `EAR` as it was. -/
theorem doChunk_lat {s : State} {n : Nat} (hn : 1 ≤ n) (hf : s.err.fault = false) :
    (s.doChunk n).lat = s.lat.afterCmds s.drawRun.1.ops ∧ (s.doChunk n).lat.ear = s.lat.ear := by
  obtain ⟨-, hlat, -⟩ := doChunk_frame (s := s) hn
  rw [hlat]
  exact ⟨afterRun_lat hf _ _, (chunkReturned_callFrame s n).ear⟩

theorem afterRun_lat_of_no_ops {s : State} (asked : Nat) (user : RunUser) (h : s.drawRun.1.ops = []) :
    (s.afterRun asked user).lat = s.lat := by
  rw [State.afterRun, h]
  simp [State.runOps]

theorem doChunk_lat_of_no_ops {s : State} (n : Nat) (h : s.drawRun.1.ops = []) : (s.doChunk n).lat = s.lat := by
  obtain ⟨-, h0⟩ | ⟨hn, -⟩ := doChunk_cases s n
  · rw [h0]
  · obtain ⟨-, hlat, -⟩ := doChunk_frame (s := s) hn
    exact hlat.trans (afterRun_lat_of_no_ops _ _ h)

/-- Settles O14: each clause by what its operation or part leaves of the latches. -/
theorem beeperAndEarAreSeparateLatches : Obligations.BeeperAndEarAreSeparateLatches := by
  unfold Obligations.BeeperAndEarAreSeparateLatches
  refine ⟨fun s t port data => exec_portw_ear, fun s t img => exec_beep (returnLoad_setApart s img).beep,
    fun s t w => exec_beep rfl, fun s t i => exec_beep rfl, fun s t => exec_beep rfl, fun s t => exec_beep rfl,
    fun s t img => exec_beep rfl, fun s k hk => (doTask_setApart s hk).beep, fun s n hn _ hf => doChunk_lat hn hf,
    fun s n => doChunk_lat_of_no_ops n, ?_⟩
  intro s t port beep h hr hp he
  obtain ⟨b, hlog, hbit⟩ := portRead_log { s with lat.beep := beep } port
  rw [exec_portr (s := { s with lat.beep := beep }) h hr] at he
  cases he
  rw [hp, if_neg Bool.false_ne_true] at hbit
  refine ⟨b, ?_, hbit⟩
  rw [hlog, ← h.1]

end Sys2Proof.Machine
